-- ==== Sys2Proof/Word.lean ====
section
/-! DEFINITION. The two widths of the wire (R11, R56): the Byte and the Word, both unsigned.
The split and merge of a Word (R76) stand in `Sys2Proof/Decode.lean`. -/

namespace Sys2Proof

/-- An 8-bit value, 0 to 255 (R11). Bit 0 is the least significant (R10). -/
abbrev Byte := BitVec 8

/-- A 16-bit unsigned value, 0 to 65535 (R11, R16). -/
abbrev Word := BitVec 16

end Sys2Proof
end

