-- ==== Sys2Proof/Config.lean ====
section
/-! DEFINITION. What the spec fixes (R8), what an implementation fixes (R9), and the one value the spec leaves
free. No step writes any of it (R33). -/

namespace Sys2Proof

/-! ### Constants the source settles (R8) -/

/-- The ACK sentinel, a constant of the block and not a register (R8, R33). -/
def Config.ack : Byte := 0x06

/-- `STRING_MAX`, the longest string of PUT_STRING in characters (R8, R92). -/
def Config.stringMax : Nat := 511

/-- The two bytes of `OPC_PUT_STRING`, in stream order (R8, R92). -/
def Config.opcPutString : Byte × Byte := (0x00, 0x18)

/-- `BAUD`: the channel's default rate (R8). No rule of the block reads it. -/
def Config.baud : Nat := 9600

/-- `STOP_BITS` of the channel (R8). No rule of the block reads it. -/
def Config.stopBits : Nat := 1

/-! ### Serial framing the source leaves open (R9, D22, U12): read by no rule of the block -/

/-- `P_DATA_BITS`, unknown (assumption 16). -/
opaque Config.dataBits : Nat

/-- `P_PARITY`, unknown, as a code of the channel's own (assumption 16). -/
opaque Config.parity : Nat

/-- `P_FLOW`, unknown, as a code of the channel's own (assumption 16). -/
opaque Config.flow : Nat

/-! ### The free value -/

/-- FREE VALUE (assumption 5). When one host operation both holds an operand out of range and a reference that
fails WF_REF, the spec names two reasons (R81, R177) and no order between them. True: BAD_REF is the one
recorded; false: ENCODING_ERROR. It depends on the operation's index and its values out of range; nothing
constrains it. -/
opaque Config.badRefFirst : Nat → List Int → Bool

/-! ### Parameters of the block (R9) -/

/-- The parameters a rule of the block reads (R9): the model takes them as arguments, through the state that
every step is given (assumption 2). -/
structure Params where
  /-- `P_MAX_RESP`: the largest payload length AWAIT_ACK accepts (D11). -/
  maxResp : Nat
  /-- `P_MAX_CMD_BYTES`: the longest command image, or no bound (D12). -/
  maxCmdBytes : Option Nat
  deriving DecidableEq, Repr

/-- The constraints of R9: `P_MAX_RESP` is at least 2, `P_MAX_CMD_BYTES` is none or at least 1206. -/
def Params.wf (p : Params) : Bool :=
  decide (2 ≤ p.maxResp) &&
    match p.maxCmdBytes with
    | none => true
    | some m => decide (1206 ≤ m)

/-- The parameters at reset (assumption 2). DESIGN CHOICE: `P_MAX_RESP` at its least value, which the vectors of
95_test_vectors.md take; `P_MAX_CMD_BYTES` at the default R9 gives, none. -/
def Params.initial : Params := { maxResp := 2, maxCmdBytes := none }

/-! ### Parameters of the façade (R9, D26): arguments of the functions of `Machine/Facade.lean` alone -/

/-- The three variants of a polyline or polygon (R93); filled implies closed. -/
inductive PolyVariant where
  | openLine
  | closed
  | filled
  deriving DecidableEq, Repr

/-- The drawing primitives other than the polyline (R94). -/
inductive Shape where
  | rectangle
  | line
  | ellipse
  | circle
  | triangle
  deriving DecidableEq, Repr

/-- The variants by which R94 selects a primitive's opcode. -/
inductive ShapeVariant where
  | outline
  | closed
  | filled
  deriving DecidableEq, Repr

/-- The façade's static configuration that the source does not give (R9, D26, U11, U15). -/
structure Catalogue where
  opcPoly : PolyVariant → Word
  opcShape : Shape → ShapeVariant → Word
  opcContrast : Word
  opcOrientation : Word
  respPoly : Nat
  respShape : Shape → Nat
  /-- `PARAMS_shape`: the names of the shape's inputs, in the order sent (R94). -/
  paramsShape : Shape → List String
  /-- `Q_X` and `Q_Y`, non-empty lists of Words (R97). -/
  queryX : List Word
  queryY : List Word
  contrastInit : Word
  /-- The byte code of a character (R92, U15). -/
  code : Char → Byte

/-- What the spec says of the catalogue's values: the queries are non-empty, the response lengths do not pass
`P_MAX_RESP` (R9), and the two character codes of the source's example hold (R92). -/
def Catalogue.Wf (c : Catalogue) (p : Params) : Prop :=
  c.queryX ≠ [] ∧ c.queryY ≠ [] ∧ c.respPoly ≤ p.maxResp ∧ (∀ sh, c.respShape sh ≤ p.maxResp) ∧
    c.code 'O' = 0x4F ∧ c.code 'K' = 0x4B

end Sys2Proof
end

