-- ==== Sys2Proof/Syntax.lean ====
section
/-! DEFINITION. Host operations (R80), the wire-format rows of spec/opcode_table.json, and the binary form of
each (R82, R70). -/

namespace Sys2Proof

/-- A Word operand (R80): the host's integer, before the range check of R81, or the result reference `@k`
(R86). -/
inductive WordOperand where
  | lit (v : Int)
  | ref (k : Nat)
  deriving DecidableEq, Repr

/-- A Byte operand (R80): the host's integer, before the range check of R81, or the result reference `@k.j`
(R86). -/
inductive ByteOperand where
  | lit (v : Int)
  | ref (k j : Nat)
  deriving DecidableEq, Repr

/-- One constructor per row of spec/opcode_table.json. The first five are the host operations of R80; what the
four wire-format rows mean as instructions is assumption 8. -/
inductive Instr where
  /-- `ENCODE_WORD v` (R100). -/
  | encodeWord (v : WordOperand)
  /-- `DECODE_WORD hi, lo` (R101). -/
  | decodeWord (hi lo : ByteOperand)
  /-- `SEND_WORDS ws` (R120). -/
  | sendWords (ws : List WordOperand)
  /-- `SEND_RAW bs` (R121). -/
  | sendRaw (bs : List ByteOperand)
  /-- `AWAIT_ACK n` (R140); `n` is always a literal (R80). -/
  | awaitAck (n : Int)
  /-- A host operation whose header is reserved (R83). -/
  | reservedHostop (header : Byte)
  /-- The Word frame `W`: two stream bytes, the high byte first (R71). -/
  | wordFrame (h l : Byte)
  /-- The acknowledgement byte `0x06` on RX (R74, R142). -/
  | ackAccepted
  /-- Any other acknowledgement byte on RX (R74, R143). -/
  | notAck (a : Byte)
  /-- The raw-byte command `00 18`, character codes, `00` (R73, R92). -/
  | putString (codes : List ByteOperand)
  deriving DecidableEq, Repr

/-- A host operation as the block sees it: literal operands only (R86). -/
inductive HostOp where
  | encodeWord (v : Word)
  | decodeWord (hi lo : Byte)
  | sendWords (ws : List Word)
  | sendRaw (bs : List Byte)
  | awaitAck (n : Nat)
  deriving DecidableEq, Repr

/-- The typed operands that travel beside a header (R82). The header says which of them it takes; an operand the
host does not give is zero or empty, so `AWAIT_ACK` without one is `AWAIT_ACK 0` (R80; assumption 4). -/
structure Operands where
  v : WordOperand := .lit 0
  hi : ByteOperand := .lit 0
  lo : ByteOperand := .lit 0
  ws : List WordOperand := []
  bs : List ByteOperand := []
  n : Int := 0
  deriving DecidableEq, Repr

/-- One entry of the host program in binary form (assumptions 4 and 8). -/
inductive ProgCell where
  /-- Format HOSTOP-hdr8: an 8-bit header with its operands beside it (R82). -/
  | hostOp (header : Byte) (args : Operands)
  /-- Format W: one Word frame, as its two stream bytes (R71). -/
  | frame (h l : Byte)
  /-- Format CR: a raw-byte command, as its bytes in stream order (R73). -/
  | raw (bytes : List ByteOperand)
  deriving DecidableEq, Repr

/-- The binary form of an instruction: an entry of the host program, or an acknowledgement byte on RX
(format A, R74). -/
inductive Encoded where
  | cell (c : ProgCell)
  | rxByte (a : Byte)
  deriving DecidableEq, Repr

end Sys2Proof
end

