-- ==== Sys2Proof/WellFormed.lean ====
section
/-! DEFINITION. The named checks of R81 on an instruction as syntax. What a failed check does is
`Machine/Operands.lean`'s refusal (R177). -/

namespace Sys2Proof

/-- `WF_WORD` (R81) on one operand; a reference is checked by `WF_REF`. -/
def WordOperand.inRange : WordOperand → Bool
  | .lit v => decide (0 ≤ v) && decide (v ≤ 65535)
  | .ref _ => true

/-- `WF_BYTE` (R81) on one operand; a reference is checked by `WF_REF`. -/
def ByteOperand.inRange : ByteOperand → Bool
  | .lit v => decide (0 ≤ v) && decide (v ≤ 255)
  | .ref _ _ => true

/-- Headers R82 assigns to no operation (R83). -/
def headerReserved (header : Byte) : Bool := decide (5 ≤ header.toNat)

/-- The checks of R81 that need no program: `WF_WORD`, `WF_BYTE`, `WF_COUNT`; a reserved header is one R83
reserves, and a non-ACK byte is not the ACK (R74). -/
def Instr.wf : Instr → Bool
  | .encodeWord v => v.inRange
  | .decodeWord hi lo => hi.inRange && lo.inRange
  | .sendWords ws => ws.all WordOperand.inRange
  | .sendRaw bs => bs.all ByteOperand.inRange
  | .awaitAck n => decide (0 ≤ n)
  | .reservedHostop header => headerReserved header
  | .wordFrame _ _ => true
  | .ackAccepted => true
  | .notAck a => decide (a ≠ Config.ack)
  | .putString codes => codes.all ByteOperand.inRange

/-- Whether an operation's result is a `Val`, so that `@k` may name it (R86). -/
def Instr.givesWord : Instr → Bool
  | .encodeWord _ => false
  | .decodeWord _ _ => true
  | .sendWords _ => false
  | .sendRaw _ => false
  | .awaitAck _ => false
  | .reservedHostop _ => false
  | .wordFrame _ _ => false
  | .ackAccepted => false
  | .notAck _ => false
  | .putString _ => false

/-- Whether an operation's result has a byte `j`, so that `@k.j` may name it (R86). -/
def Instr.givesByte (j : Nat) : Instr → Bool
  | .encodeWord _ => decide (j < 2)
  | .decodeWord _ _ => false
  | .sendWords _ => false
  | .sendRaw _ => false
  | .awaitAck n => decide (1 ≤ n) && decide ((j : Int) < n)
  | .reservedHostop _ => false
  | .wordFrame _ _ => false
  | .ackAccepted => false
  | .notAck _ => false
  | .putString _ => false

/-- `WF_REF` (R81, R86) for a Word operand of the operation at index `i` of `prog`. -/
def WordOperand.refWf (prog : List Instr) (i : Nat) : WordOperand → Bool
  | .lit _ => true
  | .ref k => decide (k < i) && prog[k]?.any Instr.givesWord

/-- `WF_REF` (R81, R86) for a Byte operand of the operation at index `i` of `prog`. -/
def ByteOperand.refWf (prog : List Instr) (i : Nat) : ByteOperand → Bool
  | .lit _ => true
  | .ref k j => decide (k < i) && prog[k]?.any (Instr.givesByte j)

/-- `WF_REF` (R81) of the instruction at index `i` of `prog`. -/
def Instr.refsWf (prog : List Instr) (i : Nat) : Instr → Bool
  | .encodeWord v => v.refWf prog i
  | .decodeWord hi lo => hi.refWf prog i && lo.refWf prog i
  | .sendWords ws => ws.all (WordOperand.refWf prog i)
  | .sendRaw bs => bs.all (ByteOperand.refWf prog i)
  | .awaitAck _ => true
  | .reservedHostop _ => true
  | .wordFrame _ _ => true
  | .ackAccepted => true
  | .notAck _ => true
  | .putString codes => codes.all (ByteOperand.refWf prog i)

end Sys2Proof
end

