-- ==== Sys2Proof/Decode.lean ====
section
/-! DEFINITION. Word frames (R71, R76), the acknowledgement validator (R142), the decoders of the host header
(R82, R83), of a program entry and of an RX acknowledgement byte, then the encoder. Every decoder is total. -/

namespace Sys2Proof

/-! ### Split and merge of a Word (R76, R100, R101) -/

/-- `w[15:8]`, the byte that goes first on the wire (R54, R71). -/
def hiByte (w : Word) : Byte := w.extractLsb' 8 8

/-- `w[7:0]`, the byte that goes second on the wire (R54, R71). -/
def loByte (w : Word) : Byte := w.extractLsb' 0 8

/-- `hi ++ lo`, the Word `hi * 256 + lo` (R11, R76). -/
def joinBytes (hi lo : Byte) : Word := BitVec.ofNat 16 (hi.toNat * 256 + lo.toNat)

/-- The byte image of a list of Words: two bytes each, the high byte first, nothing added (R72). -/
def wordImage : List Word → List Byte
  | [] => []
  | w :: ws => hiByte w :: loByte w :: wordImage ws

/-! ### The acknowledgement validator (R142) -/

/-- `is_ack`: all 8 bits are compared with the constant ACK. -/
def isAck (a : Byte) : Bool := a == Config.ack

/-- Format A: the first RX byte of an AWAIT_ACK is the ACK row or, every other value, the NOT_ACK row (R74). -/
def decodeAck (a : Byte) : Instr := if isAck a then .ackAccepted else .notAck a

/-! ### The host header (R82, R83) -/

/-- The 8-bit header: `[7:3]` must be `00000`, `[2:0]` is `op`. Every other header is the reserved row. The
operands that travel beside it are the ones `op` takes. -/
def decodeHeader (header : Byte) (args : Operands) : Instr :=
  match header.toNat with
  | 0 => .encodeWord args.v
  | 1 => .decodeWord args.hi args.lo
  | 2 => .sendWords args.ws
  | 3 => .sendRaw args.bs
  | 4 => .awaitAck args.n
  | _ => .reservedHostop header

/-- The string-output command's codes, from its bytes after the opcode pair: all but the terminator `00`, which
must be the last byte (R73, R92). -/
def stringCodes? : List ByteOperand → Option (List ByteOperand)
  | [] => none
  | [b] => if b = .lit 0 then some [] else none
  | b :: c :: rest => (stringCodes? (c :: rest)).map (b :: ·)

/-- Format CR: the opcode pair `00 18` with a terminator is the PUT_STRING row; every other raw-byte command is
a SEND_RAW of its bytes, since the block treats every opcode value alike (R73, R78). -/
def decodeRaw (bytes : List ByteOperand) : Instr :=
  match bytes with
  | b0 :: b1 :: rest =>
    if b0 = .lit 0x00 ∧ b1 = .lit 0x18 then
      match stringCodes? rest with
      | some codes => .putString codes
      | none => .sendRaw bytes
    else .sendRaw bytes
  | _ => .sendRaw bytes

/-- The instruction of one entry of the host program. -/
def decodeCell : ProgCell → Instr
  | .hostOp header args => decodeHeader header args
  | .frame h l => .wordFrame h l
  | .raw bytes => decodeRaw bytes

/-- The decoder: a program entry, or an acknowledgement byte on RX. -/
def decode : Encoded → Instr
  | .cell c => decodeCell c
  | .rxByte a => decodeAck a

/-! ### The encoder -/

/-- The binary form of an instruction: the header of R82 with its operands beside it, the Word frame of R71, the
acknowledgement byte of R74, or the bytes of R92. -/
def encode : Instr → Encoded
  | .encodeWord v => .cell (.hostOp 0x00 { v := v })
  | .decodeWord hi lo => .cell (.hostOp 0x01 { hi := hi, lo := lo })
  | .sendWords ws => .cell (.hostOp 0x02 { ws := ws })
  | .sendRaw bs => .cell (.hostOp 0x03 { bs := bs })
  | .awaitAck n => .cell (.hostOp 0x04 { n := n })
  | .reservedHostop header => .cell (.hostOp header {})
  | .wordFrame h l => .cell (.frame h l)
  | .ackAccepted => .rxByte Config.ack
  | .notAck a => .rxByte a
  | .putString codes => .cell (.raw (.lit 0x00 :: .lit 0x18 :: (codes ++ [.lit 0x00])))

/-! ### Words of the opcode table -/

/-- The binary form of an instruction whose bits are `w`, `nbits` of them, as spec/opcode_table.json numbers
them. The rows' patterns overlap between formats, so a row that fixes every bit is tried before one that fixes
none (assumption 10): of 8 bits the headers 0x00 to 0x05, then the ACK 0x06, else a NOT_ACK byte; of 16 bits the
opcode pair 0x0018 with its terminator (bits above `nbits` are 0), else a Word frame, the first stream byte in
bits 15 to 8. -/
def tableEncoded (nbits w : Nat) : Option Encoded :=
  if nbits = 8 then
    let b : Byte := BitVec.ofNat 8 w
    if b.toNat ≤ 5 then some (.cell (.hostOp b {})) else some (.rxByte b)
  else if nbits = 16 then
    let v : Word := BitVec.ofNat 16 w
    if v.toNat = 0x0018 then some (.cell (.raw [.lit 0x00, .lit 0x18, .lit 0x00]))
    else some (.cell (.frame (hiByte v) (loByte v)))
  else none

/-- The instruction the decoder reads from a word of the opcode table; none where no row has that many bits. -/
def decodeTableWord (nbits w : Nat) : Option Instr := (tableEncoded nbits w).map decode

end Sys2Proof
end

