-- ==== Sys2Proof/Machine/State.lean ====
section
/-! DEFINITION. The machine's state: the block state S (R24), the host state H (R32), the configuration a step
reads (R33), the channel's coming draws (R13, R21), and the reasons a step can stop. -/

namespace Sys2Proof.Machine

/-! ### Values of the state's fields -/

/-- What the block is doing (R25). -/
inductive Phase where
  | idle
  | tx
  | ackWait
  | payload
  deriving DecidableEq, Repr

/-- The RX step at which a read failed (R146, R171). -/
inductive RxStage where
  | ack
  | payload
  deriving DecidableEq, Repr

/-- The error kinds of R170. -/
inductive ErrorKind where
  | ioError
  | protocolError
  | validationError
  | consistencyError
  | encodingError
  deriving DecidableEq, Repr

/-- An error the block raises, with the information it records (R170 to R172). -/
inductive BlockError where
  /-- `IO_ERROR` at a TX step: `dir` is WRITE (R126). -/
  | ioWrite (sent total : Nat)
  /-- `IO_ERROR` at an RX step: `dir` is READ (R146). -/
  | ioRead (stage : RxStage) (got want : Nat)
  /-- `PROTOCOL_ERROR` with the byte read (R172). -/
  | protocol (a : Byte)
  deriving DecidableEq, Repr

/-- An error of the host's own checks (R170, R173). -/
inductive HostError where
  /-- A pre-check failed: nothing is sent. -/
  | validation
  /-- A post-check failed, with the expected and the received value. -/
  | consistency (expected received : Nat)
  deriving DecidableEq, Repr

/-- The result of a host operation (R29). -/
inductive Result where
  | pair (hi lo : Byte)
  | val (w : Word)
  | sent (m : Nat)
  | noData
  | data (bs : List Byte)
  | err (e : BlockError)
  deriving DecidableEq, Repr

/-- The model faults (R175). -/
inductive ModelFault where
  | seqSend
  | seqAwait
  | malformedCommand
  | commandTooLong
  | responseTooLong
  deriving DecidableEq, Repr

/-- The refusal reasons (R177). `encodingError` carries the values out of range, in operand order, as the
information R170 records (assumption 6). -/
inductive RefusalReason where
  | encodingError (values : List Int)
  | reservedSelector
  | oddPayload
  | badRef
  deriving DecidableEq, Repr

/-- `H.status` (R32). -/
inductive Status where
  | running
  | done
  | halted (i : Nat) (e : ErrorKind)
  deriving DecidableEq, Repr

/-- The channel's answer to `MemWrite(TX, 1, b)` (R13). -/
inductive TxAnswer where
  | ok
  | fail
  deriving DecidableEq, Repr

/-- The channel's answer to `MemRead(RX, 1)` (R13). -/
inductive RxAnswer where
  | byte (b : Byte)
  | fail
  deriving DecidableEq, Repr

/-! ### The state -/

structure State where
  /-- `S.phase`. -/
  phase : Phase
  /-- `S.op`. -/
  op : Option HostOp
  /-- `S.txq`. -/
  txq : List Byte
  /-- `S.tx_sent`. -/
  txSent : Nat
  /-- `S.ack_pending`. -/
  ackPending : Bool
  /-- `S.rx_want`. -/
  rxWant : Nat
  /-- `S.rx_buf`. -/
  rxBuf : List Byte
  /-- `S.result`. -/
  result : Option Result
  /-- `S.fault`, sticky (R31). -/
  fault : Option ModelFault
  /-- `S.refused`, sticky (R31). -/
  refused : Option RefusalReason
  /-- `S.err_io`, ghost. -/
  errIo : Bool
  /-- `S.err_protocol`, ghost. -/
  errProtocol : Bool
  /-- `S.tx_log`, ghost. -/
  txLog : List Byte
  /-- `S.rx_log`, ghost. -/
  rxLog : List Byte
  /-- `H.prog` in binary form: configuration (R33). -/
  prog : List ProgCell
  /-- `H.hpc`. -/
  hpc : Nat
  /-- `H.status`. -/
  status : Status
  /-- `H.results`. -/
  results : List Result
  /-- MODEL, of the host: the check of the façade that failed and the host's report of it, with the index of the
  entry it belongs to (R90, R173; assumption 9). -/
  hostReport : Option (Nat × HostError)
  /-- The parameters of R9: configuration (R33). -/
  params : Params
  /-- MODEL: the channel's coming answers on TX, first first (assumption 1). -/
  txAnswers : List TxAnswer
  /-- MODEL: the channel's coming answers on RX, first first (assumption 1). -/
  rxAnswers : List RxAnswer
  /-- MODEL, ghost: SEND operations completed with `Sent` since reset (R35 item 7; assumption 15). -/
  sendsDone : Nat
  /-- MODEL, ghost: AWAIT_ACK operations completed since reset (R35 item 7; assumption 15). -/
  awaitsDone : Nat
  deriving DecidableEq, Repr

/-- Right after power-on (R200): every field of S as R24 gives it, an empty host program, hence DONE (R32). The
parameters are assumption 2, the channel's answers assumption 1. -/
def State.reset : State where
  phase := .idle
  op := none
  txq := []
  txSent := 0
  ackPending := false
  rxWant := 0
  rxBuf := []
  result := none
  fault := none
  refused := none
  errIo := false
  errProtocol := false
  txLog := []
  rxLog := []
  prog := []
  hpc := 0
  status := .done
  results := []
  hostReport := none
  params := Params.initial
  txAnswers := []
  rxAnswers := []
  sendsDone := 0
  awaitsDone := 0

/-! ### Reasons a step stops -/

/-- Why a step answers a fault. -/
inductive Fault where
  /-- Raised by any step of a state whose `S.fault` already holds a model fault: no step of any agent is enabled
  there (R31, R176). Recording the fault was a next state of its own. SAFE: the machine has no step there. -/
  | recorded (f : ModelFault)
  /-- Raised by a TX step with an empty queue, which has no byte to offer. R125 derives that no reachable state
  has one (assumption 13). SAFE: the spec gives no step there. -/
  | emptyTransmitQueue
  deriving DecidableEq, Repr

/-- Why a step is refused. -/
inductive Refusal where
  /-- Raised by an arm of `exec` whose instruction has no meaning yet. SAFE: nothing can be proved of it. -/
  | notModelled (mnemonic : String)
  /-- Raised by any step of a state whose `S.refused` already holds a reason: no step of any agent is enabled
  there (R31, R177). Recording the refusal was a next state of its own. SAFE: the machine has no step there. -/
  | recorded (r : RefusalReason)
  deriving DecidableEq, Repr

/-- The outcome type of a step of this machine. -/
abbrev Step := Host.Outcome State Fault Refusal

end Sys2Proof.Machine
end

