-- ==== Sys2Proof/Machine/Flags.lean ====
section
/-! DEFINITION. The block has no condition codes (R34). Its one internal Boolean a step reads is `ack_pending`
(R26); its ghost flags are `err_io` and `err_protocol` (R30). Each update stands here once. -/

namespace Sys2Proof.Machine

/-- The numeric code of an error kind (R170). -/
def ErrorKind.code : ErrorKind → Nat
  | .ioError => 1
  | .protocolError => 2
  | .validationError => 3
  | .consistencyError => 4
  | .encodingError => 5

/-- The kind of a host error (R170). -/
def HostError.kind : HostError → ErrorKind
  | .validation => .validationError
  | .consistency _ _ => .consistencyError

/-- The kind of an error the block raises (R170). -/
def BlockError.kind : BlockError → ErrorKind
  | .ioWrite _ _ => .ioError
  | .ioRead _ _ _ => .ioError
  | .protocol _ => .protocolError

/-- The channel has taken every byte of a command: its acknowledgement is outstanding (R26, R125). -/
def State.commandSent (s : State) : State :=
  { s with ackPending := true, sendsDone := s.sendsDone + 1 }

/-- An AWAIT_ACK ends, with whatever result: no acknowledgement is outstanding (R26, R145). -/
def State.ackRetired (s : State) : State :=
  { s with ackPending := false, awaitsDone := s.awaitsDone + 1 }

/-- Raising an error sets its ghost flag, which nothing clears (R30, R171, R172). -/
def State.noteError (e : BlockError) (s : State) : State :=
  { s with
    errIo := s.errIo || (e.kind == .ioError)
    errProtocol := s.errProtocol || (e.kind == .protocolError) }

end Sys2Proof.Machine
end

