-- ==== Sys2Proof/Machine/Operands.lean ====
section
/-! DEFINITION. Operands of a host operation at its ISSUE: result references (R86), the checks of R81 and the
refusal a failed check gives (R177). -/

namespace Sys2Proof.Machine

/-- `H.prog` as instructions. -/
def State.program (s : State) : List Instr := s.prog.map decodeCell

/-- The Word `@k` stands for: that of a `Val` result (R86). -/
def resultWord? (results : List Result) (k : Nat) : Option Word :=
  match results[k]? with
  | some (.val w) => some w
  | _ => none

/-- The byte `@k.j` stands for: byte `j` of a `Data` result, or of a `Pair` (R86). -/
def resultByte? (results : List Result) (k j : Nat) : Option Byte :=
  match results[k]? with
  | some (.data bs) => bs[j]?
  | some (.pair hi lo) => if j = 0 then some hi else if j = 1 then some lo else none
  | _ => none

/-- The value of a Word operand that passes the checks of R81. -/
def wordValue (results : List Result) : WordOperand → Word
  | .lit v => BitVec.ofInt 16 v
  | .ref k => (resultWord? results k).getD 0

/-- The value of a Byte operand that passes the checks of R81. -/
def byteValue (results : List Result) : ByteOperand → Byte
  | .lit v => BitVec.ofInt 8 v
  | .ref k j => (resultByte? results k j).getD 0

/-- The integer that fails `WF_WORD`, if this operand does (R81). -/
def wordOutOfRange : WordOperand → List Int
  | .lit v => if 0 ≤ v ∧ v ≤ 65535 then [] else [v]
  | .ref _ => []

/-- The integer that fails `WF_BYTE`, if this operand does (R81). -/
def byteOutOfRange : ByteOperand → List Int
  | .lit v => if 0 ≤ v ∧ v ≤ 255 then [] else [v]
  | .ref _ _ => []

/-- The count, if it fails `WF_COUNT` (R81). -/
def countOutOfRange (n : Int) : List Int := if 0 ≤ n then [] else [n]

/-- A Word operand of the operation at `H.hpc` that fails `WF_REF` (R81), or whose result is not there, which
R86 says cannot happen (assumption 14). -/
def wordBadRef (s : State) : WordOperand → Bool
  | .lit _ => false
  | .ref k =>
    !(WordOperand.refWf s.program s.hpc (.ref k) && (resultWord? s.results k).isSome)

/-- A Byte operand of the operation at `H.hpc` that fails `WF_REF` (R81), or whose result is not there, which
R86 says cannot happen (assumption 14). -/
def byteBadRef (s : State) : ByteOperand → Bool
  | .lit _ => false
  | .ref k j =>
    !(ByteOperand.refWf s.program s.hpc (.ref k j) && (resultByte? s.results k j).isSome)

/-- The refusal of an operation with values `values` out of range and, where `badRef` says so, a bad reference
(R177). Both at once is the free value of assumption 5. -/
def refusalOf (hpc : Nat) (values : List Int) (badRef : Bool) : Option RefusalReason :=
  if values = [] then
    if badRef then some .badRef else none
  else if badRef && Config.badRefFirst hpc values then some .badRef
  else some (.encodingError values)

/-- The refusal of an operation over Word operands. -/
def refusalOfWords (s : State) (ws : List WordOperand) : Option RefusalReason :=
  refusalOf s.hpc (ws.flatMap wordOutOfRange) (ws.any (wordBadRef s))

/-- The refusal of an operation over Byte operands. -/
def refusalOfBytes (s : State) (bs : List ByteOperand) : Option RefusalReason :=
  refusalOf s.hpc (bs.flatMap byteOutOfRange) (bs.any (byteBadRef s))

/-- The refusal of an operation over a count. -/
def refusalOfCount (s : State) (n : Int) : Option RefusalReason :=
  refusalOf s.hpc (countOutOfRange n) false

/-- The literal Words the block sees (R86). -/
def wordValues (s : State) (ws : List WordOperand) : List Word := ws.map (wordValue s.results)

/-- The literal Bytes the block sees (R86). -/
def byteValues (s : State) (bs : List ByteOperand) : List Byte := bs.map (byteValue s.results)

/-- Response reassembly `words_of` (R102): a list of odd length is refused ODD_PAYLOAD, never padded or cut. -/
def wordsOf : List Byte → Except RefusalReason (List Word)
  | [] => .ok []
  | [_] => .error .oddPayload
  | h :: l :: rest =>
    match wordsOf rest with
    | .ok ws => .ok (joinBytes h l :: ws)
    | .error r => .error r

end Sys2Proof.Machine
end

