-- ==== Sys2Proof/Machine/Ops.lean ====
section
/-! DEFINITION. The shared operations of the machine: completion (R38), recording a model fault or a refusal
(R176, R177), raising an error (R179) and going on after one (R180, R32), ISSUE (R32), and the three block steps
(R125, R143, R144). -/

namespace Sys2Proof.Machine

/-! ### Completion and errors -/

/-- The kind of an `Err` result (R38). -/
def Result.errorKind? : Result → Option ErrorKind
  | .pair _ _ => none
  | .val _ => none
  | .sent _ => none
  | .noData => none
  | .data _ => none
  | .err e => some e.kind

/-- `H.hpc` after a completion with result `r` (R38): an `Err` leaves it. -/
def State.hpcAfter (r : Result) (s : State) : Nat :=
  match r.errorKind? with
  | some _ => s.hpc
  | none => s.hpc + 1

/-- `H.status` after a completion with result `r` (R38). DONE is tested on the new `H.hpc`, as the program trace
P1 of 95_test_vectors.md shows (assumption 7). -/
def State.statusAfter (r : Result) (s : State) : Status :=
  match r.errorKind? with
  | some e => .halted s.hpc e
  | none => if s.hpc + 1 = s.prog.length then .done else s.status

/-- `Complete(r)` (R38). -/
def State.complete (r : Result) (s : State) : State :=
  { s with
    result := some r
    results := s.results ++ [r]
    op := none
    phase := .idle
    txq := []
    txSent := 0
    rxWant := 0
    rxBuf := []
    hpc := s.hpcAfter r
    status := s.statusAfter r }

/-- Raising an error: its ghost flag, then `Complete(Err)` (R179). Its callers clear `ack_pending` where R143 and
R146 do. -/
def State.raise (e : BlockError) (s : State) : State := (s.noteError e).complete (.err e)

/-- Recording a model fault (R176): nothing else changes, and the first one stays. -/
def State.recordFault (f : ModelFault) (s : State) : State := { s with fault := some (s.fault.getD f) }

/-- Recording a refusal in place of the issue (R177): nothing else changes, and the first one stays (R24). -/
def State.recordRefusal (r : RefusalReason) (s : State) : State :=
  { s with refused := some (s.refused.getD r) }

/-! ### Which steps are enabled -/

/-- When ISSUE is enabled (R32). -/
abbrev State.HostReady (s : State) : Prop :=
  s.status = .running ∧ s.phase = .idle ∧ s.op = none ∧ s.fault = none ∧ s.refused = none ∧
    s.hpc < s.prog.length

/-- A state with a recorded fault or refusal has no step (R31); any other goes on with `k`. -/
def State.unlessStopped (s : State) (k : Step) : Step :=
  match s.fault with
  | some f => .fault (.recorded f)
  | none =>
    match s.refused with
    | some r => .refused (.recorded r)
    | none => k

/-- ISSUE of an operation whose operands have the refusal `refusal` (R178 item 1: it comes first), and which
otherwise leaves `body`. While ISSUE is not enabled the host has no step and nothing changes (R25, R32;
assumption 12). -/
def State.issue (s : State) (refusal : Option RefusalReason) (body : State) : Step :=
  s.unlessStopped
    (if s.HostReady then
      match refusal with
      | some r => .next (s.recordRefusal r)
      | none => .next body
    else .next s)

/-! ### Command transmission -/

/-- Whether an image is longer than `P_MAX_CMD_BYTES` (R123). -/
def imageTooLong (p : Params) (len : Nat) : Bool :=
  match p.maxCmdBytes with
  | none => false
  | some m => decide (m < len)

/-- The block takes up a command: the accepting branch of `StartTX` (R124). -/
def State.beginTx (op : HostOp) (image : List Byte) (s : State) : State :=
  { s with op := some op, txq := image, txSent := 0, phase := .tx }

/-- `StartTX` with `min_len` = 2, its checks in the order of R124. -/
def State.startTx (op : HostOp) (image : List Byte) (s : State) : State :=
  if s.ackPending then s.recordFault .seqSend
  else if image.length < 2 then s.recordFault .malformedCommand
  else if imageTooLong s.params image.length then s.recordFault .commandTooLong
  else s.beginTx op image

/-- The channel takes byte `b`, and `rest` is left of the command: the `ok` branch of R125. -/
def State.txTaken (b : Byte) (rest : List Byte) (s : State) : State :=
  { s with txLog := s.txLog ++ [b], txq := rest, txSent := s.txSent + 1 }

/-- The TX step (R125, R126) with the channel's answer, one joint step that uses up the draw (assumption 23). A
failure leaves `ack_pending` as it is (assumption 22). -/
def State.txStep (ans : TxAnswer) (s : State) : Step :=
  let drawn : State := { s with txAnswers := s.txAnswers.tail }
  match s.txq with
  | [] => .fault .emptyTransmitQueue
  | b :: rest =>
    match ans with
    | .ok =>
      if rest = [] then .next (((drawn.txTaken b rest).commandSent).complete (.sent (s.txSent + 1)))
      else .next (drawn.txTaken b rest)
    | .fail => .next (drawn.raise (.ioWrite s.txSent (s.txSent + s.txq.length)))

/-! ### Acknowledgement and response -/

/-- The block takes up an AWAIT_ACK: the accepting branch of R140. -/
def State.beginAck (n : Nat) (s : State) : State :=
  { s with op := some (.awaitAck n), rxWant := n, rxBuf := [], phase := .ackWait }

/-- The issue of `AWAIT_ACK n`, its checks in the order of R140. -/
def State.startAck (n : Nat) (s : State) : State :=
  if s.ackPending then
    if s.params.maxResp < n then s.recordFault .responseTooLong else s.beginAck n
  else s.recordFault .seqAwait

/-- A byte is read from the channel: the draw is used up and the byte logged (R60, R143, R144). -/
def State.rxTaken (b : Byte) (s : State) : State :=
  { s with rxAnswers := s.rxAnswers.tail, rxLog := s.rxLog ++ [b] }

/-- `RxFail(stage)` (R146): the draw is used up, the bytes read before it are discarded. -/
def State.rxFail (stage : RxStage) (s : State) : State :=
  let drawn : State := { s with rxAnswers := s.rxAnswers.tail }
  drawn.ackRetired.raise (.ioRead stage s.rxBuf.length s.rxWant)

/-- The RX acknowledgement step on the byte `a` (R143). -/
def State.rxAckByte (a : Byte) (s : State) : State :=
  if isAck a then
    if s.rxWant = 0 then ((s.rxTaken a).ackRetired).complete .noData
    else { s.rxTaken a with phase := .payload }
  else ((s.rxTaken a).ackRetired).raise (.protocol a)

/-- An acknowledgement byte as an instruction: the RX acknowledgement step whose answer it is. In any other phase
that step is not enabled and nothing changes (R25, R143; assumptions 8 and 12). -/
def State.ackByte (a : Byte) (s : State) : Step :=
  s.unlessStopped (if s.phase = .ackWait then .next (s.rxAckByte a) else .next s)

/-- The RX payload step on the byte `b` (R144): a payload byte is data, whatever its value. -/
def State.rxPayloadByte (b : Byte) (s : State) : State :=
  if s.rxBuf.length + 1 = s.rxWant then
    ((s.rxTaken b).ackRetired).complete (.data (s.rxBuf ++ [b]))
  else { s.rxTaken b with rxBuf := s.rxBuf ++ [b] }

/-! ### The host's program and the channel's answers -/

/-- Whether a new program may be loaded (R32). -/
abbrev State.MayLoad (s : State) : Prop := s.phase = .idle ∧ s.status ≠ .running

/-- Loading the program `P` (R32), the only way to go on after an error (R180). It leaves S as it is; where it is
not allowed there is no loaded state. A report belongs to the program before (assumption 9). -/
def State.loadProgram (P : List ProgCell) (s : State) : Option State :=
  if s.MayLoad then
    some
      { s with
        prog := P, hpc := 0, results := [], hostReport := none,
        status := if P = [] then .done else .running }
  else none

/-- The channel comes to answer `a` to a write, after the answers it already has in hand (R13, R21). -/
def State.offerTx (a : TxAnswer) (s : State) : State := { s with txAnswers := s.txAnswers ++ [a] }

/-- The channel comes to answer `a` to a read, after the answers it already has in hand (R13, R21, R57). -/
def State.offerRx (a : RxAnswer) (s : State) : State := { s with rxAnswers := s.rxAnswers ++ [a] }

/-! ### Fetch -/

/-- The entry ISSUE takes: `H.prog[H.hpc]`, while ISSUE is enabled (R32). -/
def State.fetch? (s : State) : Option ProgCell := if s.HostReady then s.prog[s.hpc]? else none

/-- The state in which the very next step runs `e` (assumption 3): a program entry is a program of one, about to
be issued; an acknowledgement byte is the channel's next answer to an `AWAIT_ACK 0` that waits for it. -/
def State.placed (e : Encoded) (s : State) : State :=
  match e with
  | .cell c =>
    { s with
      prog := [c], hpc := 0, results := [], hostReport := none, status := .running,
      phase := .idle, op := none, fault := none, refused := none }
  | .rxByte a =>
    { s with
      prog := [.hostOp 0x04 {}], hpc := 0, results := [], hostReport := none, status := .running,
      phase := .ackWait, op := some (.awaitAck 0), ackPending := true, rxWant := 0, rxBuf := [],
      fault := none, refused := none,
      rxAnswers := .byte a :: s.rxAnswers }

end Sys2Proof.Machine
end

