-- ==== Sys2Proof/Machine/AckResponse.lean ====
section
/-! DEFINITION. Acknowledgement and response (42_ack_response.md): the issue of AWAIT_ACK, and the two rows of the
acknowledgement byte. The payload steps that follow are `State.rxPayloadByte`. -/

namespace Sys2Proof.Machine

/-- `AWAIT_ACK n` (R140). -/
def execAwaitAck (n : Int) (s : State) : Step :=
  s.issue (refusalOfCount s n) (s.startAck n.toNat)

/-- The byte `0x06` at the RX acknowledgement step (R74, R143). -/
def execAckAccepted (s : State) : Step := s.ackByte Config.ack

/-- A byte at the RX acknowledgement step that is not `0x06` (R74, R143, R172). -/
def execNotAck (a : Byte) (s : State) : Step := s.ackByte a

end Sys2Proof.Machine
end

