-- ==== Sys2Proof/Machine/Reserved.lean ====
section
/-! DEFINITION. A host operation with a reserved header (R83). -/

namespace Sys2Proof.Machine

/-- The decoder refuses a reserved header with reason RESERVED_SELECTOR, recorded in place of the issue (R83,
R177). All reserved headers have the one effect. -/
def execReservedHostop (_header : Byte) (s : State) : Step :=
  s.issue (some .reservedSelector) s

end Sys2Proof.Machine
end

