-- ==== Sys2Proof/Machine/Transmit.lean ====
section
/-! DEFINITION. Command transmission (41_transmit.md): the issue of a command in word mode or in raw-byte mode.
The TX steps that follow are `State.txStep`. -/

namespace Sys2Proof.Machine

/-- `SEND_WORDS ws` (R120). -/
def execSendWords (ws : List WordOperand) (s : State) : Step :=
  s.issue (refusalOfWords s ws)
    (s.startTx (.sendWords (wordValues s ws)) (wordImage (wordValues s ws)))

/-- `SEND_RAW bs` (R121): the image is the list itself. -/
def execSendRaw (bs : List ByteOperand) (s : State) : Step :=
  s.issue (refusalOfBytes s bs) (s.startTx (.sendRaw (byteValues s bs)) (byteValues s bs))

/-- A Word frame on TX (R71): the command of one Word, whose image is its two bytes (R72, R120; assumption 8). -/
def execWordFrame (h l : Byte) (s : State) : Step :=
  s.issue none (s.startTx (.sendWords [joinBytes h l]) [h, l])

/-- The bytes of the string-output command: opcode pair, codes, terminator (R73, R92). -/
def stringImage (codes : List Byte) : List Byte :=
  Config.opcPutString.1 :: Config.opcPutString.2 :: (codes ++ [0x00])

/-- The host reports `e` for the entry at `H.hpc`, whose pre-check failed. Its expansion is empty (R90), and an empty
host program is DONE from the start (R32): nothing is issued and S is unchanged (R173; assumption 9). -/
def State.hostError (e : HostError) (s : State) : State :=
  { s with status := .done, hostReport := some (s.hpc, e) }

/-- The string-output command (R92). The pre-check on its length comes first, then the checks of R81, then the
SEND_RAW of its bytes; the acknowledgement and the echoed length are the host operations that follow it in the
expansion of `Machine/Facade.lean` (assumption 8). -/
def execPutString (codes : List ByteOperand) (s : State) : Step :=
  if Config.stringMax < codes.length then s.issue none (s.hostError .validation)
  else
    s.issue (refusalOfBytes s codes)
      (s.startTx (.sendRaw (stringImage (byteValues s codes))) (stringImage (byteValues s codes)))

end Sys2Proof.Machine
end

