-- ==== Sys2Proof/Machine/WordCodec.lean ====
section
/-! DEFINITION. The word codec (40_word_codec.md): both operations complete in the ISSUE step and touch neither
the channel nor `ack_pending` (R105). -/

namespace Sys2Proof.Machine

/-- `ENCODE_WORD v` (R100). -/
def execEncodeWord (v : WordOperand) (s : State) : Step :=
  s.issue (refusalOfWords s [v])
    (s.complete (.pair (hiByte (wordValue s.results v)) (loByte (wordValue s.results v))))

/-- `DECODE_WORD hi, lo` (R101). -/
def execDecodeWord (hi lo : ByteOperand) (s : State) : Step :=
  s.issue (refusalOfBytes s [hi, lo])
    (s.complete (.val (joinBytes (byteValue s.results hi) (byteValue s.results lo))))

end Sys2Proof.Machine
end

