-- ==== Sys2Proof/Machine/Dispatch.lean ====
section
/-! DEFINITION. One arm per constructor of `Instr`: a direct call of its meaning. -/

namespace Sys2Proof.Machine

def exec (i : Instr) (s : State) : Host.Outcome State Fault Refusal :=
  match i with
  | .encodeWord v => Sys2Proof.Machine.execEncodeWord v s
  | .decodeWord hi lo => Sys2Proof.Machine.execDecodeWord hi lo s
  | .sendWords ws => Sys2Proof.Machine.execSendWords ws s
  | .sendRaw bs => Sys2Proof.Machine.execSendRaw bs s
  | .awaitAck n => Sys2Proof.Machine.execAwaitAck n s
  | .reservedHostop header => Sys2Proof.Machine.execReservedHostop header s
  | .wordFrame h l => Sys2Proof.Machine.execWordFrame h l s
  | .ackAccepted => Sys2Proof.Machine.execAckAccepted s
  | .notAck a => Sys2Proof.Machine.execNotAck a s
  | .putString codes => Sys2Proof.Machine.execPutString codes s

end Sys2Proof.Machine
end

