-- ==== Sys2Proof/Machine/Step.lean ====
section
/-! DEFINITION. One step of the machine: whichever of ISSUE, the TX step and the two RX steps the phase enables
(R25), joint with the channel's next answer (R20). Where no step is enabled, since the channel has not answered
(R209) or the run is over (R212), the state stays as it is (assumption 11). -/

namespace Sys2Proof.Machine

def step (s : State) : Host.Outcome State Fault Refusal :=
  s.unlessStopped
    (match s.phase with
    | .idle =>
      match s.fetch? with
      | some c => exec (decodeCell c) s
      | none => .next s
    | .tx =>
      match s.txAnswers with
      | ans :: _ => s.txStep ans
      | [] => .next s
    | .ackWait =>
      match s.rxAnswers with
      | .byte a :: _ => exec (decodeAck a) s
      | .fail :: _ => .next (s.rxFail .ack)
      | [] => .next s
    | .payload =>
      match s.rxAnswers with
      | .byte b :: _ => .next (s.rxPayloadByte b)
      | .fail :: _ => .next (s.rxFail .payload)
      | [] => .next s)

/-- `s` with the instruction whose bits are `w` where the next step takes it from (assumption 3); `s` itself where
the table has no row of `nbits` bits. -/
def State.withFetchWord (s : State) (nbits w : Nat) : State :=
  match tableEncoded nbits w with
  | some e => s.placed e
  | none => s

end Sys2Proof.Machine
end

