-- ==== Sys2Proof/Machine/Assembler.lean ====
section
/-! DEFINITION. The assembler syntax of R84: one operation a line, as a list of characters. Numbers are decimal
or `0x` hex, a Byte operand may be `@k.j` and a Word operand `@k`, and `;` starts a comment (assumption 21). -/

namespace Sys2Proof.Machine

/-- What a line is made of. -/
inductive Token where
  | name (cs : List Char)
  | comma
  | lbrack
  | rbrack
  deriving DecidableEq, Repr

/-- The word read so far, if any, before `rest`; its characters are held last first. -/
def endWord (word : List Char) (rest : List Token) : List Token :=
  if word = [] then rest else .name word.reverse :: rest

/-- The tokens of a line, up to a comment. -/
def tokens (word : List Char) : List Char → List Token
  | [] => endWord word []
  | c :: cs =>
    if c = ';' then endWord word []
    else if c = ',' then endWord word (.comma :: tokens [] cs)
    else if c = '[' then endWord word (.lbrack :: tokens [] cs)
    else if c = ']' then endWord word (.rbrack :: tokens [] cs)
    else if c = ' ' ∨ c = '\t' then endWord word (tokens [] cs)
    else tokens (c :: word) cs

/-- The value of a digit in base 10 or 16. -/
def digit? (base : Nat) (c : Char) : Option Nat :=
  let n := c.toNat
  let v? :=
    if 48 ≤ n ∧ n ≤ 57 then some (n - 48)
    else if 65 ≤ n ∧ n ≤ 70 then some (n - 55)
    else if 97 ≤ n ∧ n ≤ 102 then some (n - 87)
    else none
  v?.bind fun v => if v < base then some v else none

/-- The value of a list of digits, most significant first, after `acc`. -/
def digits? (base acc : Nat) : List Char → Option Nat
  | [] => some acc
  | c :: cs =>
    match digit? base c with
    | some v => digits? base (acc * base + v) cs
    | none => none

/-- A number: decimal, or hex after `0x`. -/
def number? : List Char → Option Nat
  | '0' :: 'x' :: c :: cs => digits? 16 0 (c :: cs)
  | c :: cs => digits? 10 0 (c :: cs)
  | [] => none

/-- A Word operand: a number or `@k`. -/
def wordToken? : List Char → Option WordOperand
  | '@' :: cs => (number? cs).map .ref
  | cs => (number? cs).map fun (n : Nat) => .lit (n : Int)

/-- A Byte operand: a number or `@k.j`. -/
def byteToken? : List Char → Option ByteOperand
  | '@' :: cs =>
    match number? (cs.takeWhile (· != '.')), number? ((cs.dropWhile (· != '.')).tail) with
    | some k, some j => some (.ref k j)
    | _, _ => none
  | cs => (number? cs).map fun (n : Nat) => .lit (n : Int)

/-- The items of a bracketed list, after its first bracket and item. -/
def moreItems? : List Token → Option (List (List Char))
  | [.rbrack] => some []
  | .comma :: .name cs :: rest => (moreItems? rest).map (cs :: ·)
  | _ => none

/-- The items of a bracketed list, after its first bracket. -/
def items? : List Token → Option (List (List Char))
  | [.rbrack] => some []
  | .name cs :: rest => (moreItems? rest).map (cs :: ·)
  | _ => none

/-- Every item, or none if one fails. -/
def allItems? {α : Type} (f : List Char → Option α) : List (List Char) → Option (List α)
  | [] => some []
  | cs :: rest =>
    match f cs, allItems? f rest with
    | some a, some as => some (a :: as)
    | _, _ => none

/-- The operation of a line's mnemonic and the tokens after it. -/
def operation? (mnemonic : List Char) (args : List Token) : Option Instr :=
  if mnemonic = "ENCODE_WORD".toList then
    match args with
    | [.name v] => (wordToken? v).map .encodeWord
    | _ => none
  else if mnemonic = "DECODE_WORD".toList then
    match args with
    | [.name hi, .comma, .name lo] =>
      match byteToken? hi, byteToken? lo with
      | some h, some l => some (.decodeWord h l)
      | _, _ => none
    | _ => none
  else if mnemonic = "SEND_WORDS".toList then
    match args with
    | .lbrack :: rest => ((items? rest).bind (allItems? wordToken?)).map .sendWords
    | _ => none
  else if mnemonic = "SEND_RAW".toList then
    match args with
    | .lbrack :: rest => ((items? rest).bind (allItems? byteToken?)).map .sendRaw
    | _ => none
  else if mnemonic = "AWAIT_ACK".toList then
    match args with
    | [] => some (.awaitAck 0)
    | [.name n] => (number? n).map fun (k : Nat) => .awaitAck (k : Int)
    | _ => none
  else none

/-- The operation of one line: none where the line is not of R84's form. A line without an operation is empty. -/
def assembleLine (line : List Char) : Option (List Instr) :=
  match tokens [] line with
  | [] => some []
  | .name m :: args => (operation? m args).map ([·])
  | _ => none

/-- A host program written one operation a line. -/
def assemble : List (List Char) → Option (List Instr)
  | [] => some []
  | line :: rest =>
    match assembleLine line, assemble rest with
    | some is, some more => some (is ++ more)
    | _, _ => none

end Sys2Proof.Machine
end

