-- ==== Sys2Proof/Machine/Facade.lean ====
section
/-! DEFINITION. The façade's pseudo-instructions as expansions into host operations (R90 to R97), with the checks
the host makes around them. The façade is outside the block (R6): these are host programs, and none of this is
read by a step. Its parameters are the `Catalogue` (D26; assumption 20). -/

namespace Sys2Proof.Machine

/-- A Word as a literal operand. -/
def litWord (w : Word) : WordOperand := .lit (w.toNat : Int)

/-- A Byte as a literal operand. -/
def litByte (b : Byte) : ByteOperand := .lit (b.toNat : Int)

/-- The entries of a host program; an instruction that is an RX byte is none. -/
def programCells (is : List Instr) : List ProgCell :=
  is.filterMap fun i =>
    match encode i with
    | .cell c => some c
    | .rxByte _ => none

/-- `CMD(ws, n)` (R91). -/
def cmd (ws : List WordOperand) (n : Nat) : List Instr := [.sendWords ws, .awaitAck n]

/-- `CMD_RAW(bs, n)` (R91). -/
def cmdRaw (bs : List ByteOperand) (n : Nat) : List Instr := [.sendRaw bs, .awaitAck n]

/-- `DECODE_WORD @(i+1).0, @(i+1).1`: the Word of the two-byte response of the round trip issued at index `i`. -/
def decodeReply (i : Nat) : Instr := .decodeWord (.ref (i + 1) 0) (.ref (i + 1) 1)

/-- The Word of the reply decoded at index `i`. -/
def replyWord? (results : List Result) (i : Nat) : Option Word := resultWord? results i

/-! ### String output (R92) -/

/-- The bytes of `PUT_STRING s` (R73, R92). -/
def putStringBytes (c : Catalogue) (text : List Char) : List Byte :=
  Config.opcPutString.1 :: Config.opcPutString.2 :: (text.map c.code ++ [0x00])

/-- `PUT_STRING s`, pre-check and expansion at indices `i` to `i + 2` (R92). -/
def putString (c : Catalogue) (i : Nat) (text : List Char) : Except HostError (List Instr) :=
  if Config.stringMax < text.length then .error .validation
  else .ok (cmdRaw ((putStringBytes c text).map litByte) 2 ++ [decodeReply i])

/-- The post-check of `PUT_STRING s` on the echoed length (R92). -/
def putStringCheck (text : List Char) (w : Word) : Except HostError Unit :=
  if w.toNat = text.length then .ok () else .error (.consistency text.length w.toNat)

/-! ### Drawing (R93, R94) -/

/-- `POLY xs, ys, color, variant`: the X-coordinates are not interleaved with the Y-coordinates (R93). -/
def poly (c : Catalogue) (xs ys : List Word) (color : Word) (variant : PolyVariant) :
    Except HostError (List Instr) :=
  if xs.length = ys.length then
    .ok (cmd
      (litWord (c.opcPoly variant) :: .lit (xs.length : Int) ::
        (xs.map litWord ++ ys.map litWord ++ [litWord color])) c.respPoly)
  else .error .validation

/-- A drawing primitive: its inputs by name, in the catalogue's order (R94). -/
def drawShape (c : Catalogue) (shape : Shape) (variant : ShapeVariant) (inputs : String → Word) :
    List Instr :=
  cmd (litWord (c.opcShape shape variant) :: (c.paramsShape shape).map (fun name => litWord (inputs name)))
    (c.respShape shape)

/-! ### Contrast (R95) and orientation (R96) -/

/-- The façade's DisplayState: the last non-zero contrast set (R16, R95, conflict C4). -/
structure DisplayState where
  contrast : Word
  deriving DecidableEq, Repr

/-- Before any contrast is set: `CONTRAST_INIT` (R95). -/
def DisplayState.initial (c : Catalogue) : DisplayState := { contrast := c.contrastInit }

/-- `SET_CONTRAST v` at indices `i` to `i + 2`; its result is the previous contrast (R95). -/
def setContrast (c : Catalogue) (i : Nat) (v : Word) : List Instr :=
  cmd [litWord c.opcContrast, litWord v] 2 ++ [decodeReply i]

/-- The cache after the round trip of `SET_CONTRAST v`: the newly requested value, unless it is zero (R95). -/
def DisplayState.afterSet (d : DisplayState) (v : Word) : DisplayState :=
  if v = 0 then d else { contrast := v }

/-- `CONTRAST_OFF` (R95). -/
def contrastOff (c : Catalogue) (i : Nat) : List Instr := setContrast c i 0

/-- `CONTRAST_ON` (R95). -/
def contrastOn (c : Catalogue) (i : Nat) (d : DisplayState) : List Instr := setContrast c i d.contrast

/-- `SET_ORIENTATION o` at indices `i` to `i + 2`; its result is the previous orientation (R96). -/
def setOrientation (c : Catalogue) (i : Nat) (o : Word) : List Instr :=
  cmd [litWord c.opcOrientation, litWord o] 2 ++ [decodeReply i]

/-! ### Display size (R97) -/

/-- `DISPLAY_SIZE` at indices `i` to `i + 5`: two round trips, X then Y (R97). -/
def displaySize (c : Catalogue) (i : Nat) : List Instr :=
  cmd (c.queryX.map litWord) 2 ++ [decodeReply i] ++ cmd (c.queryY.map litWord) 2 ++ [decodeReply (i + 3)]

/-- The pair (width, height) of `DISPLAY_SIZE` issued at index `i` (R97). -/
def displaySizeResult (results : List Result) (i : Nat) : Option (Word × Word) :=
  match replyWord? results (i + 2), replyWord? results (i + 5) with
  | some width, some height => some (width, height)
  | _, _ => none

end Sys2Proof.Machine
end

