-- ==== Sys2Proof/Safety.lean ====
section
/-! DEFINITION. The terms claims are stated in: what an operand gives, how a run may stand at its end, the
invariants of the reachable states, and reachability. Written from the spec's rules, not from the operations. -/

namespace Sys2Proof.Machine

/-! ### Operands -/

/-- The Word operand `v` of the operation at `H.hpc` is well-formed and stands for `w` (R81, R86). -/
def WordGives (s : State) (v : WordOperand) (w : Word) : Prop :=
  match v with
  | .lit x => 0 ≤ x ∧ x ≤ 65535 ∧ (w.toNat : Int) = x
  | .ref k =>
    k < s.hpc ∧ (∃ hi lo, s.program[k]? = some (.decodeWord hi lo)) ∧ s.results[k]? = some (.val w)

/-- The Byte operand `v` of the operation at `H.hpc` is well-formed and stands for `b` (R81, R86). -/
def ByteGives (s : State) (v : ByteOperand) (b : Byte) : Prop :=
  match v with
  | .lit x => 0 ≤ x ∧ x ≤ 255 ∧ (b.toNat : Int) = x
  | .ref k j =>
    k < s.hpc ∧
      ((∃ n bs, s.program[k]? = some (.awaitAck n) ∧ 1 ≤ n ∧ (j : Int) < n ∧
          s.results[k]? = some (.data bs) ∧ bs[j]? = some b) ∨
        (∃ v hi lo, s.program[k]? = some (.encodeWord v) ∧ s.results[k]? = some (.pair hi lo) ∧
          (j = 0 ∧ b = hi ∨ j = 1 ∧ b = lo)))

/-- A list of Word operands gives a list of Words, one by one. -/
def WordsGive (s : State) (vs : List WordOperand) (ws : List Word) : Prop :=
  List.Forall₂ (WordGives s) vs ws

/-- A list of Byte operands gives a list of Bytes, one by one. -/
def BytesGive (s : State) (vs : List ByteOperand) (bs : List Byte) : Prop :=
  List.Forall₂ (ByteGives s) vs bs

/-- An image within `P_MAX_CMD_BYTES` (R123). -/
def FitsCommand (p : Params) (len : Nat) : Prop := ∀ m, p.maxCmdBytes = some m → len ≤ m

/-! ### Where a run stands -/

/-- No fault and no refusal is recorded (R31). -/
def Unstopped (s : State) : Prop := s.fault = none ∧ s.refused = none

/-- `CleanEntry` (R204). -/
def CleanEntry (s : State) : Prop :=
  s.phase = .idle ∧ s.op = none ∧ s.ackPending = false ∧ s.fault = none ∧ s.refused = none

/-- A halted run says what failed: the operation at index `i` reported an error of kind `e`, and `S.result` holds it
(R212). -/
def HaltHolds (s : State) (i : Nat) (e : ErrorKind) : Prop :=
  i < s.prog.length ∧ ∃ err : BlockError,
    err.kind = e ∧ s.result = some (.err err) ∧ s.results[i]? = some (.err err)

/-- A run that is over: completed, or halted at the operation whose error `S.result` holds (R212). -/
def Final (s : State) : Prop :=
  (s.status = .done ∨ ∃ i e, s.status = .halted i e ∧ HaltHolds s i e) ∧
    s.phase = .idle ∧ s.fault = none ∧ s.refused = none

/-- The channel has not answered the access the phase makes (R209). -/
def Waiting (s : State) : Prop :=
  s.phase = .tx ∧ s.txAnswers = [] ∨ (s.phase = .ackWait ∨ s.phase = .payload) ∧ s.rxAnswers = []

/-- `k` steps of the machine from `s`, stopping at the first fault or refusal. -/
def runFor (k : Nat) (s : State) : Host.Outcome State Fault Refusal := Host.Core.run Sys2Proof.core k s

/-! ### Invariants -/

/-- The byte image of a command (R120, R121). -/
def HostOp.image? : HostOp → Option (List Byte)
  | .encodeWord _ => none
  | .decodeWord _ _ => none
  | .sendWords ws => some (wordImage ws)
  | .sendRaw bs => some bs
  | .awaitAck _ => none

/-- What R35 items 1 to 6, R27 and R28 say of the block state. -/
structure BlockInv (s : State) : Prop where
  /-- R35 item 1. -/
  idle_iff : s.phase = .idle ↔ s.op = none
  /-- R35 item 2. -/
  txq_empty : s.phase ≠ .tx → s.txq = []
  /-- R35 item 3. -/
  rx_empty : s.phase ≠ .ackWait → s.phase ≠ .payload → s.rxWant = 0 ∧ s.rxBuf = []
  /-- R35 item 4. -/
  ackWait_buf : s.phase = .ackWait → s.rxBuf = []
  /-- R35 item 5. -/
  tx_ack : s.phase = .tx → s.ackPending = false
  /-- R35 item 6. -/
  rx_ack : s.phase = .ackWait ∨ s.phase = .payload → s.ackPending = true
  /-- R125: a TX step always has a byte. -/
  txq_nonempty : s.phase = .tx → s.txq ≠ []
  /-- R27: what is left of the command is its image after the bytes the channel took. -/
  tx_image : s.phase = .tx → ∃ o image, s.op = some o ∧ HostOp.image? o = some image ∧
    s.txSent ≤ image.length ∧ s.txq = image.drop s.txSent
  /-- R28. -/
  want_bound : s.rxWant ≤ s.params.maxResp
  /-- R28. -/
  payload_short : s.phase = .payload → s.rxBuf.length < s.rxWant

/-- R35 item 7, exactly: every command sent whole has its acknowledgement read or outstanding. -/
def CountInv (s : State) : Prop := s.sendsDone = s.awaitsDone + s.ackPending.toNat

/-- The result a completed operation leaves, by its instruction (R29). The rows that no host operation
completes have none. -/
def ResultFits : Instr → Result → Prop
  | .encodeWord _, r => ∃ hi lo, r = .pair hi lo
  | .decodeWord _ _, r => ∃ w, r = .val w
  | .sendWords _, r => ∃ m, r = .sent m
  | .sendRaw _, r => ∃ m, r = .sent m
  | .awaitAck n, r => n = 0 ∧ r = .noData ∨ 1 ≤ n ∧ ∃ bs, r = .data bs ∧ (bs.length : Int) = n
  | .reservedHostop _, _ => False
  | .wordFrame _ _, r => ∃ m, r = .sent m
  | .ackAccepted, _ => False
  | .notAck _, _ => False
  | .putString _, r => ∃ m, r = .sent m

/-- Whether an instruction is the issue of a command. -/
def Instr.isSend : Instr → Bool
  | .encodeWord _ => false
  | .decodeWord _ _ => false
  | .sendWords _ => true
  | .sendRaw _ => true
  | .awaitAck _ => false
  | .reservedHostop _ => false
  | .wordFrame _ _ => true
  | .ackAccepted => false
  | .notAck _ => false
  | .putString _ => true

/-- The host's bookkeeping (R32, R38, R86): the operations before `H.hpc` each left the result its form says, and
the operation the block is doing is the one at `H.hpc`. -/
structure HostInv (s : State) : Prop where
  /-- Each completed operation's result is there and has its form (R86, "the value always exists"). -/
  results_fit : ∀ k, k < s.hpc → ∃ i r, s.program[k]? = some i ∧ s.results[k]? = some r ∧ ResultFits i r
  /-- Results stand for completed operations only, or for the one that failed (R32, R38). -/
  results_length : s.results.length = s.hpc ∨ s.results.length = s.hpc + 1 ∧ ∃ i e, s.status = .halted i e
  /-- The index never passes the program's end (R23). -/
  hpc_le : s.hpc ≤ s.prog.length
  /-- While the block is busy the program runs, at an operation of its own (R25, R32). -/
  busy : s.phase ≠ .idle → s.status = .running ∧ s.hpc < s.prog.length
  /-- A transmission is the operation at `H.hpc`. -/
  tx_op : s.phase = .tx → ∃ i, s.program[s.hpc]? = some i ∧ Instr.isSend i = true
  /-- An AWAIT_ACK in progress is the operation at `H.hpc`, and `rx_want` is its operand (R28). -/
  rx_op : s.phase = .ackWait ∨ s.phase = .payload →
    ∃ n, s.program[s.hpc]? = some (.awaitAck n) ∧ n = (s.rxWant : Int)
  /-- DONE is said at the end of the program (R38), or where the host reported a failed pre-check (assumption 9). -/
  done_end : s.status = .done → s.hpc = s.prog.length ∨ ∃ e, s.hostReport = some (s.hpc, e)
  /-- A report stands at the entry where the program is over (R90, R173; assumption 9). -/
  report_done : ∀ i e, s.hostReport = some (i, e) → s.status = .done ∧ i = s.hpc ∧ i < s.prog.length
  /-- HALTED names the operation at `H.hpc` and the error it reported (R38, R212). -/
  halt_holds : ∀ i e, s.status = .halted i e → i = s.hpc ∧ HaltHolds s i e
  /-- RUNNING is said before it only (R32, R38). -/
  running_before : s.status = .running → s.hpc < s.prog.length
  /-- A fault or a refusal is recorded in place of an issue, so the host's status stays RUNNING (R176, R177): no
  program can be loaded after one. -/
  stopped : ¬ Unstopped s → s.status = .running

/-- Whether the checks of R81 decide an instruction's issue: the host operations of R80, and a string-output command
that passes the length pre-check of R92 (assumption 8). -/
def Instr.isChecked : Instr → Bool
  | .encodeWord _ => true
  | .decodeWord _ _ => true
  | .sendWords _ => true
  | .sendRaw _ => true
  | .awaitAck _ => true
  | .reservedHostop _ => false
  | .wordFrame _ _ => false
  | .ackAccepted => false
  | .notAck _ => false
  | .putString codes => decide (codes.length ≤ 511)

/-- Whether an instruction is one the host issues, rather than a byte on RX. -/
def Instr.isIssued : Instr → Bool
  | .encodeWord _ => true
  | .decodeWord _ _ => true
  | .sendWords _ => true
  | .sendRaw _ => true
  | .awaitAck _ => true
  | .reservedHostop _ => true
  | .wordFrame _ _ => true
  | .ackAccepted => false
  | .notAck _ => false
  | .putString _ => true

/-- The literal of a Word operand that fails `WF_WORD` (R81). -/
def badWordLiteral? (v : WordOperand) : Option Int :=
  match v with
  | .lit x => if v.inRange then none else some x
  | .ref _ => none

/-- The literal of a Byte operand that fails `WF_BYTE` (R81). -/
def badByteLiteral? (v : ByteOperand) : Option Int :=
  match v with
  | .lit x => if v.inRange then none else some x
  | .ref _ _ => none

/-- The values of an instruction's operands that are out of range, in operand order (R81, R170). -/
def badLiterals : Instr → List Int
  | .encodeWord v => [v].filterMap badWordLiteral?
  | .decodeWord hi lo => [hi, lo].filterMap badByteLiteral?
  | .sendWords ws => ws.filterMap badWordLiteral?
  | .sendRaw bs => bs.filterMap badByteLiteral?
  | .awaitAck n => if n < 0 then [n] else []
  | .reservedHostop _ => []
  | .wordFrame _ _ => []
  | .ackAccepted => []
  | .notAck _ => []
  | .putString codes => codes.filterMap badByteLiteral?

/-- Two states that differ at most in the ghost fields of R30. -/
def SameButGhost (s t : State) : Prop :=
  { s with
    errIo := t.errIo, errProtocol := t.errProtocol, txLog := t.txLog, rxLog := t.rxLog,
    sendsDone := t.sendsDone, awaitsDone := t.awaitsDone } = t

/-- States the machine can come to: from reset with any parameters R9 allows, by its own steps, by loading a
program (R32) and by the channel's answers (R21). -/
inductive Reachable : State → Prop
  | reset (p : Params) (h : p.wf = true) : Reachable { State.reset with params := p }
  | step {s t : State} (h : Reachable s) (hs : step s = .next t) : Reachable t
  | load {s t : State} (P : List ProgCell) (h : Reachable s) (hl : s.loadProgram P = some t) : Reachable t
  | offerTx {s : State} (a : TxAnswer) (h : Reachable s) : Reachable (s.offerTx a)
  | offerRx {s : State} (a : RxAnswer) (h : Reachable s) : Reachable (s.offerRx a)

end Sys2Proof.Machine
end

