-- ==== Sys2Proof/Certificates/Slice0/Obligations.lean ====
section
/-! DEFINITION. The statements for the provers. Each docstring names the rule of spec/ it formalises; where it
rests on a choice of the model, it names the assumption. -/

open Sys2Proof Sys2Proof.Machine

/-! ### Encodings -/

/-- R82: the header's bits `[7:3]` must be `00000`, and `[2:0]` selects the operation, whose operands travel
beside the header; every other header is the reserved row. -/
def Obligations.HeaderSelectsOperation : Prop :=
  ∀ (header : Byte) (args : Operands),
    (header.extractLsb' 3 5 ≠ 0 → decodeHeader header args = .reservedHostop header) ∧
    (header.extractLsb' 3 5 = 0 →
      (header.extractLsb' 0 3 = 0 → decodeHeader header args = .encodeWord args.v) ∧
      (header.extractLsb' 0 3 = 1 → decodeHeader header args = .decodeWord args.hi args.lo) ∧
      (header.extractLsb' 0 3 = 2 → decodeHeader header args = .sendWords args.ws) ∧
      (header.extractLsb' 0 3 = 3 → decodeHeader header args = .sendRaw args.bs) ∧
      (header.extractLsb' 0 3 = 4 → decodeHeader header args = .awaitAck args.n) ∧
      ((header.extractLsb' 0 3).toNat ≥ 5 → decodeHeader header args = .reservedHostop header))

/-- Decode and encode agree on every well-formed instruction. -/
def Obligations.DecodeInvertsEncode : Prop :=
  ∀ i : Instr, i.wf = true → decode (encode i) = i

/-- Every acknowledgement byte and every Word frame is one word, which the encoder gives back (R71, R74). -/
def Obligations.WireBytesReencode : Prop :=
  (∀ a : Byte, encode (decodeAck a) = .rxByte a) ∧
    ∀ h l : Byte, encode (decode (.cell (.frame h l))) = .cell (.frame h l)

/-- A few words of the opcode table decode to the instruction of their row (L2-A, R71, R74, R92). Two choices of
the model stand in it: which row a word of two formats is (assumption 10), and that an operand no host gave beside
a header is zero or empty (assumption 4; R80 gives a default for AWAIT_ACK alone). -/
def Obligations.TableWordsDecode : Prop :=
  decodeTableWord 8 0x00 = some (.encodeWord (.lit 0)) ∧
    decodeTableWord 8 0x01 = some (.decodeWord (.lit 0) (.lit 0)) ∧
    decodeTableWord 8 0x02 = some (.sendWords []) ∧
    decodeTableWord 8 0x03 = some (.sendRaw []) ∧
    decodeTableWord 8 0x04 = some (.awaitAck 0) ∧
    decodeTableWord 8 0x05 = some (.reservedHostop 0x05) ∧
    decodeTableWord 8 0x06 = some .ackAccepted ∧
    decodeTableWord 8 0x15 = some (.notAck 0x15) ∧
    decodeTableWord 16 0x012C = some (.wordFrame 0x01 0x2C) ∧
    decodeTableWord 16 0x0018 = some (.putString [])

/-- R142: the validator is true of `0x06` and of no other byte. -/
def Obligations.AckIsExactlySix : Prop :=
  ∀ a : Byte, isAck a = true ↔ a = 0x06

/-! ### Word codec -/

/-- R100: ENCODE_WORD completes with the quotient and the remainder of its Word by 256, high byte first. -/
def Obligations.EncodeWordCompletes : Prop :=
  ∀ (s : State) (v : WordOperand) (w : Word), s.HostReady → WordGives s v w →
    ∃ hi lo : Byte, hi.toNat = w.toNat / 256 ∧ lo.toNat = w.toNat % 256 ∧
      exec (.encodeWord v) s = .next (s.complete (.pair hi lo))

/-- R101: DECODE_WORD completes with `hi * 256 + lo`. -/
def Obligations.DecodeWordCompletes : Prop :=
  ∀ (s : State) (vh vl : ByteOperand) (hi lo : Byte), s.HostReady → ByteGives s vh hi → ByteGives s vl lo →
    ∃ w : Word, w.toNat = hi.toNat * 256 + lo.toNat ∧
      exec (.decodeWord vh vl) s = .next (s.complete (.val w))

/-- R103: DECODE_WORD undoes ENCODE_WORD for every value, ENCODE_WORD undoes DECODE_WORD for every pair, and both
maps are bijections. -/
def Obligations.CodecRoundTrip : Prop :=
  (∀ (v : Int) (s t : State) (hi lo : Byte), 0 ≤ v → v ≤ 65535 → s.HostReady →
      exec (.encodeWord (.lit v)) s = .next t → t.result = some (.pair hi lo) →
      ∀ s' : State, s'.HostReady →
        ∃ (t' : State) (w : Word), exec (.decodeWord (litByte hi) (litByte lo)) s' = .next t' ∧
          t'.result = some (.val w) ∧ (w.toNat : Int) = v) ∧
    (∀ (hi lo : Byte) (s t : State) (w : Word), s.HostReady →
      exec (.decodeWord (litByte hi) (litByte lo)) s = .next t → t.result = some (.val w) →
      ∀ s' : State, s'.HostReady →
        ∃ t' : State, exec (.encodeWord (litWord w)) s' = .next t' ∧ t'.result = some (.pair hi lo)) ∧
    Function.Bijective (fun w : Word => (hiByte w, loByte w)) ∧
    Function.Bijective (fun p : Byte × Byte => joinBytes p.1 p.2)

/-- R102: a payload of even length is reassembled pairwise, a payload of odd length is refused ODD_PAYLOAD. -/
def Obligations.WordsOfReassembles : Prop :=
  ∀ bs : List Byte,
    (bs.length % 2 = 0 →
      ∃ ws : List Word, wordsOf bs = .ok ws ∧ 2 * ws.length = bs.length ∧
        ∀ (j : Nat) (h l : Byte), bs[2 * j]? = some h → bs[2 * j + 1]? = some l →
          ∃ w : Word, ws[j]? = some w ∧ w.toNat = h.toNat * 256 + l.toNat) ∧
    (bs.length % 2 = 1 → wordsOf bs = .error .oddPayload)

/-- R58, R72: Word `i` of a command occupies bytes `2i` and `2i + 1` of its image, high byte first, nothing is
added, and reassembly gives the Words back. -/
def Obligations.WordImageLayout : Prop :=
  ∀ ws : List Word,
    (wordImage ws).length = 2 * ws.length ∧ wordsOf (wordImage ws) = .ok ws ∧
      ∀ (i : Nat) (w : Word), ws[i]? = some w →
        ∃ hi lo : Byte, (wordImage ws)[2 * i]? = some hi ∧ (wordImage ws)[2 * i + 1]? = some lo ∧
          hi.toNat = w.toNat / 256 ∧ lo.toNat = w.toNat % 256

/-! ### Refusals -/

/-- R81, R104, R174, R177, R178: an operation with an operand out of range and good references is refused
ENCODING_ERROR before anything else, whatever `ack_pending` holds; nothing is masked and nothing else changes.
That the reason carries the values is assumption 6; that the string-output command is such an operation is
assumption 8. -/
def Obligations.OutOfRangeOperandIsRefused : Prop :=
  ∀ (s : State) (i : Instr), s.HostReady → HostInv s → Instr.isChecked i = true → i.wf = false →
    i.refsWf s.program s.hpc = true →
    badLiterals i ≠ [] ∧ exec i s = .next { s with refused := some (.encodingError (badLiterals i)) }

/-- R81, R86, R177: an operation whose operands are in range and one of whose references is bad is refused BAD_REF,
and nothing else changes. That the string-output command is such an operation is assumption 8. -/
def Obligations.BadReferenceIsRefused : Prop :=
  ∀ (s : State) (i : Instr), s.HostReady → Instr.isChecked i = true → i.wf = true →
    i.refsWf s.program s.hpc = false → exec i s = .next { s with refused := some .badRef }

/-- R177, R178: where both checks fail, one of their two reasons is recorded and nothing else changes; which one is
the free value of assumption 5. That ENCODING_ERROR carries all the values, in operand order, is assumption 6, and
that the string-output command is such an operation is assumption 8. -/
def Obligations.BothChecksFailingIsRefused : Prop :=
  ∀ (s : State) (i : Instr), s.HostReady → Instr.isChecked i = true → i.wf = false →
    i.refsWf s.program s.hpc = false →
    ∃ r : RefusalReason, (r = .badRef ∨ r = .encodingError (badLiterals i)) ∧
      exec i s = .next { s with refused := some r }

/-- R83, R177: the effect of a reserved header is the refusal RESERVED_SELECTOR and nothing else. -/
def Obligations.ReservedHeaderIsRefused : Prop :=
  ∀ (s : State) (header : Byte), s.HostReady →
    exec (.reservedHostop header) s = .next { s with refused := some .reservedSelector }

/-- R86: where the host's bookkeeping holds, the value of a well-formed operand always exists. -/
def Obligations.WellFormedOperandsHaveValues : Prop :=
  ∀ s : State, HostInv s →
    (∀ v : WordOperand, v.inRange = true → v.refWf s.program s.hpc = true → ∃ w, WordGives s v w) ∧
    (∀ v : ByteOperand, v.inRange = true → v.refWf s.program s.hpc = true → ∃ b, ByteGives s v b)

/-! ### Command transmission -/

/-- R120, R124: SEND_WORDS takes up the command whose image is two bytes a Word, high byte first; no byte moves
yet, and nothing else changes. -/
def Obligations.SendWordsStarts : Prop :=
  ∀ (s : State) (vs : List WordOperand) (ws : List Word), s.HostReady → WordsGive s vs ws →
    s.ackPending = false → ws ≠ [] → FitsCommand s.params (2 * ws.length) →
    exec (.sendWords vs) s = .next
      { s with
        op := some (.sendWords ws)
        txq := ws.flatMap fun w => [w.extractLsb' 8 8, w.extractLsb' 0 8]
        txSent := 0
        phase := .tx }

/-- R121, R124: SEND_RAW takes up the command whose image is its bytes, verbatim; no byte moves yet, and nothing
else changes. -/
def Obligations.SendRawStarts : Prop :=
  ∀ (s : State) (vs : List ByteOperand) (bs : List Byte), s.HostReady → BytesGive s vs bs →
    s.ackPending = false → 2 ≤ bs.length → FitsCommand s.params bs.length →
    exec (.sendRaw vs) s = .next { s with op := some (.sendRaw bs), txq := bs, txSent := 0, phase := .tx }

/-- R71, R120: a Word frame handed to the block is the command of one Word (assumption 8): its two bytes go on TX,
the high byte first. -/
def Obligations.WordFrameStarts : Prop :=
  ∀ (s : State) (h l : Byte), s.HostReady → s.ackPending = false → FitsCommand s.params 2 →
    ∃ w : Word, w.toNat = h.toNat * 256 + l.toNat ∧
      exec (.wordFrame h l) s = .next
        { s with op := some (.sendWords [w]), txq := [h, l], txSent := 0, phase := .tx }

/-- R73, R92: the string-output command goes as the raw bytes `00 18`, its codes, `00` (assumption 8). -/
def Obligations.PutStringStarts : Prop :=
  ∀ (s : State) (vs : List ByteOperand) (codes : List Byte), s.HostReady → BytesGive s vs codes →
    s.ackPending = false → vs.length ≤ 511 → FitsCommand s.params (codes.length + 3) →
    exec (.putString vs) s = .next
      { s with
        op := some (.sendRaw ([0x00, 0x18] ++ codes ++ [0x00]))
        txq := [0x00, 0x18] ++ codes ++ [0x00]
        txSent := 0
        phase := .tx }

/-- R90, R92, R173: a string of more than 511 characters sends nothing and leaves the block as it was, whatever
its codes and whether or not an acknowledgement is outstanding. That the host's report stands in a field of its own,
and that a program whose expansion is empty is DONE there, is assumption 9. -/
def Obligations.LongStringSendsNothing : Prop :=
  ∀ (s : State) (vs : List ByteOperand), s.HostReady → 511 < vs.length →
    exec (.putString vs) s = .next { s with status := .done, hostReport := some (s.hpc, .validation) }

/-- R122, R123, R124, R178: a command the block does not take up records the first of SEQ_SEND,
MALFORMED_COMMAND and COMMAND_TOO_LONG that applies, in that order; no byte moves and nothing else changes. -/
def Obligations.SendFaultsInOrder : Prop :=
  ∀ (s : State) (i : Instr) (image : List Byte), s.HostReady →
    ((∃ vs ws, i = .sendWords vs ∧ WordsGive s vs ws ∧ image = wordImage ws) ∨
      ∃ vs, i = .sendRaw vs ∧ BytesGive s vs image) →
    (s.ackPending = true → exec i s = .next { s with fault := some .seqSend }) ∧
    (s.ackPending = false → image.length < 2 →
      exec i s = .next { s with fault := some .malformedCommand }) ∧
    (s.ackPending = false → 2 ≤ image.length → ¬ FitsCommand s.params image.length →
      exec i s = .next { s with fault := some .commandTooLong })

/-- R122, R123, R124: a Word frame and a string-output command that the block does not take up record the same
faults in the same order as the commands they stand for (assumption 8). -/
def Obligations.FrameAndStringFaultsInOrder : Prop :=
  ∀ (s : State) (i : Instr) (image : List Byte), s.HostReady →
    ((∃ h l, i = .wordFrame h l ∧ image = [h, l]) ∨
      ∃ vs codes, i = .putString vs ∧ vs.length ≤ 511 ∧ BytesGive s vs codes ∧
        image = [0x00, 0x18] ++ codes ++ [0x00]) →
    (s.ackPending = true → exec i s = .next { s with fault := some .seqSend }) ∧
    (s.ackPending = false → ¬ FitsCommand s.params image.length →
      exec i s = .next { s with fault := some .commandTooLong })

/-- R125: the TX step, for every answer of the channel. Answered `ok` it moves the head of the queue to the log and
counts it; on the last byte the acknowledgement becomes outstanding and the operation completes with `Sent`.
Answered `fail` it ends the command as R126 says. The answers in hand are assumption 1 and the count `sendsDone` is
assumption 15. -/
def Obligations.TxStepByAnswer : Prop :=
  ∀ (s : State) (b : Byte) (rest : List Byte), s.phase = .tx → Unstopped s → s.txq = b :: rest →
    (∀ more, s.txAnswers = .ok :: more → rest ≠ [] →
      step s = .next
        { s with txAnswers := more, txLog := s.txLog ++ [b], txq := rest, txSent := s.txSent + 1 }) ∧
    (∀ more, s.txAnswers = .ok :: more → rest = [] →
      step s = .next
        ({ s with
          txAnswers := more
          txLog := s.txLog ++ [b]
          ackPending := true
          sendsDone := s.sendsDone + 1 }.complete (.sent (s.txSent + 1)))) ∧
    (∀ more, s.txAnswers = .fail :: more →
      step s = .next
        ({ s with txAnswers := more, errIo := true }.complete
          (.err (.ioWrite s.txSent (s.txSent + s.txq.length)))))

/-- R126, R171, R179: a TX step answered `fail` ends the command with IO_ERROR and the counts of bytes taken and in
all; the byte that failed is not logged, the rest is dropped, and no acknowledgement is outstanding. The answers in
hand are assumption 1. -/
def Obligations.TxFailEndsCommand : Prop :=
  ∀ (s : State) (more : List TxAnswer), BlockInv s → s.phase = .tx → Unstopped s → s.txAnswers = .fail :: more →
    step s = .next
      { s with
        txAnswers := more
        ackPending := false
        errIo := true
        result := some (.err (.ioWrite s.txSent (s.txSent + s.txq.length)))
        results := s.results ++ [.err (.ioWrite s.txSent (s.txSent + s.txq.length))]
        op := none
        phase := .idle
        txq := []
        txSent := 0
        rxWant := 0
        rxBuf := []
        status := .halted s.hpc .ioError }

/-- R127: a command that passes its checks and gets its answers ends in one of two ways. Every byte is taken: the
log gains the image and the result is `Sent`. Or the first `k` are taken and the next answer is `fail`: the log
gains the first `k` and the result is IO_ERROR with `k`. Either way nothing is read. The answers in hand are
assumption 1 and the count `sendsDone` is assumption 15. -/
def Obligations.CommandRunSummary : Prop :=
  ∀ (s : State) (o : HostOp) (image : List Byte) (more : List TxAnswer),
    s.ackPending = false → Unstopped s → 2 ≤ image.length → step s = .next (s.beginTx o image) →
    (s.txAnswers = List.replicate image.length .ok ++ more →
      runFor (image.length + 1) s = .next
        ({ s with
          txAnswers := more
          txLog := s.txLog ++ image
          ackPending := true
          sendsDone := s.sendsDone + 1 }.complete (.sent image.length))) ∧
    (∀ k, k < image.length → s.txAnswers = List.replicate k .ok ++ .fail :: more →
      runFor (k + 2) s = .next
        ({ s with
          txAnswers := more
          txLog := s.txLog ++ image.take k
          ackPending := false
          errIo := true }.complete (.err (.ioWrite k image.length))))

/-! ### Acknowledgement and response -/

/-- R140: AWAIT_ACK with an outstanding acknowledgement and a length within the bound waits for the
acknowledgement byte; nothing is read yet, and nothing else changes. -/
def Obligations.AwaitAckStarts : Prop :=
  ∀ (s : State) (n : Nat), s.HostReady → s.ackPending = true → n ≤ s.params.maxResp →
    exec (.awaitAck n) s = .next
      { s with op := some (.awaitAck n), rxWant := n, rxBuf := [], phase := .ackWait }

/-- R140, R141, R148, R178: an AWAIT_ACK the block does not take up records SEQ_AWAIT, or else
RESPONSE_TOO_LONG; no byte is read and nothing else changes. -/
def Obligations.AwaitAckFaultsInOrder : Prop :=
  ∀ (s : State) (n : Nat), s.HostReady →
    (s.ackPending = false → exec (.awaitAck n) s = .next { s with fault := some .seqAwait }) ∧
    (s.ackPending = true → s.params.maxResp < n →
      exec (.awaitAck n) s = .next { s with fault := some .responseTooLong })

/-- R143: the byte `0x06`, where it is awaited, is logged; with no payload wanted the operation completes with
`NoData` and the acknowledgement is no longer outstanding, else the payload is read next. That the row is the RX
acknowledgement step on that byte is assumption 8; the count `awaitsDone` is assumption 15. -/
def Obligations.AckAcceptedCompletes : Prop :=
  ∀ s : State, s.phase = .ackWait → Unstopped s →
    (s.rxWant = 0 →
      exec .ackAccepted s = .next
        ({ s with
          rxAnswers := s.rxAnswers.tail
          rxLog := s.rxLog ++ [0x06]
          ackPending := false
          awaitsDone := s.awaitsDone + 1 }.complete .noData)) ∧
    (s.rxWant ≠ 0 →
      exec .ackAccepted s = .next
        { s with rxAnswers := s.rxAnswers.tail, rxLog := s.rxLog ++ [0x06], phase := .payload })

/-- R143, R172: any other byte, where the acknowledgement is awaited, ends the operation with PROTOCOL_ERROR and
that byte; one byte is consumed and the acknowledgement is no longer outstanding. That the row is the RX
acknowledgement step on that byte is assumption 8; the count `awaitsDone` is assumption 15. -/
def Obligations.NotAckCompletes : Prop :=
  ∀ (s : State) (a : Byte), s.phase = .ackWait → Unstopped s → a ≠ 0x06 →
    exec (.notAck a) s = .next
      ({ s with
        rxAnswers := s.rxAnswers.tail
        rxLog := s.rxLog ++ [a]
        errProtocol := true
        ackPending := false
        awaitsDone := s.awaitsDone + 1 }.complete (.err (.protocol a)))

/-- R143: the RX acknowledgement step, for every answer of the channel. The answers in hand are assumption 1 and
the count `awaitsDone` is assumption 15. -/
def Obligations.RxAckStepByAnswer : Prop :=
  ∀ s : State, s.phase = .ackWait → Unstopped s →
    (∀ more, s.rxAnswers = .fail :: more →
      step s = .next
        ({ s with
          rxAnswers := more
          errIo := true
          ackPending := false
          awaitsDone := s.awaitsDone + 1 }.complete (.err (.ioRead .ack s.rxBuf.length s.rxWant)))) ∧
    (∀ a more, s.rxAnswers = .byte a :: more → a ≠ 0x06 →
      step s = .next
        ({ s with
          rxAnswers := more
          rxLog := s.rxLog ++ [a]
          errProtocol := true
          ackPending := false
          awaitsDone := s.awaitsDone + 1 }.complete (.err (.protocol a)))) ∧
    (∀ more, s.rxAnswers = .byte 0x06 :: more → s.rxWant = 0 →
      step s = .next
        ({ s with
          rxAnswers := more
          rxLog := s.rxLog ++ [0x06]
          ackPending := false
          awaitsDone := s.awaitsDone + 1 }.complete .noData)) ∧
    (∀ more, s.rxAnswers = .byte 0x06 :: more → s.rxWant ≠ 0 →
      step s = .next { s with rxAnswers := more, rxLog := s.rxLog ++ [0x06], phase := .payload })

/-- R144: the RX payload step, for every answer of the channel. A payload byte is data whatever its value. The
answers in hand are assumption 1 and the count `awaitsDone` is assumption 15. -/
def Obligations.RxPayloadStepByAnswer : Prop :=
  ∀ s : State, s.phase = .payload → Unstopped s →
    (∀ more, s.rxAnswers = .fail :: more →
      step s = .next
        ({ s with
          rxAnswers := more
          errIo := true
          ackPending := false
          awaitsDone := s.awaitsDone + 1 }.complete (.err (.ioRead .payload s.rxBuf.length s.rxWant)))) ∧
    (∀ b more, s.rxAnswers = .byte b :: more → s.rxBuf.length + 1 = s.rxWant →
      step s = .next
        ({ s with
          rxAnswers := more
          rxLog := s.rxLog ++ [b]
          ackPending := false
          awaitsDone := s.awaitsDone + 1 }.complete (.data (s.rxBuf ++ [b])))) ∧
    (∀ b more, s.rxAnswers = .byte b :: more → s.rxBuf.length + 1 ≠ s.rxWant →
      step s = .next
        { s with rxAnswers := more, rxLog := s.rxLog ++ [b], rxBuf := s.rxBuf ++ [b] })

/-- R147: an AWAIT_ACK that passes its checks ends in one of five ways, by what the channel answers: what it
results in, which bytes are logged, and that nothing is written. It reads `1 + n` bytes when it succeeds, one on
PROTOCOL_ERROR and fewer on IO_ERROR, and the rest stay in the channel (R57). The answers in hand are assumption 1
and the count `awaitsDone` is assumption 15. -/
def Obligations.AwaitAckRunSummary : Prop :=
  ∀ (s : State) (n : Nat) (more : List RxAnswer),
    Unstopped s → step s = .next (s.beginAck n) →
    (s.rxAnswers = .fail :: more →
      runFor 2 s = .next
        ({ s with
          rxAnswers := more, errIo := true, ackPending := false
          awaitsDone := s.awaitsDone + 1 }.complete (.err (.ioRead .ack 0 n)))) ∧
    (∀ a, s.rxAnswers = .byte a :: more → a ≠ 0x06 →
      runFor 2 s = .next
        ({ s with
          rxAnswers := more, rxLog := s.rxLog ++ [a], errProtocol := true, ackPending := false
          awaitsDone := s.awaitsDone + 1 }.complete (.err (.protocol a)))) ∧
    (s.rxAnswers = .byte 0x06 :: more → n = 0 →
      runFor 2 s = .next
        ({ s with
          rxAnswers := more, rxLog := s.rxLog ++ [0x06], ackPending := false
          awaitsDone := s.awaitsDone + 1 }.complete .noData)) ∧
    (∀ p : List Byte, p.length = n → 1 ≤ n →
      s.rxAnswers = .byte 0x06 :: (p.map RxAnswer.byte ++ more) →
      runFor (n + 2) s = .next
        ({ s with
          rxAnswers := more, rxLog := s.rxLog ++ (0x06 :: p), ackPending := false
          awaitsDone := s.awaitsDone + 1 }.complete (.data p))) ∧
    (∀ q : List Byte, q.length < n →
      s.rxAnswers = .byte 0x06 :: (q.map RxAnswer.byte ++ .fail :: more) →
      runFor (q.length + 3) s = .next
        ({ s with
          rxAnswers := more, rxLog := s.rxLog ++ (0x06 :: q), errIo := true, ackPending := false
          awaitsDone := s.awaitsDone + 1 }.complete (.err (.ioRead .payload q.length n))))

/-- R145, R204: whichever way an AWAIT_ACK ends, no acknowledgement is outstanding and `CleanEntry` holds. The
count `awaitsDone` is assumption 15. -/
def Obligations.AwaitAckEndsClean : Prop :=
  ∀ s t : State, s.phase = .ackWait ∨ s.phase = .payload → step s = .next t → t.phase = .idle →
    CleanEntry t ∧ t.awaitsDone = s.awaitsDone + 1

/-! ### Completion, errors and the host -/

/-- R38: `Complete(r)`, field by field; `ack_pending`, the fault, the refusal and the ghost fields are untouched.
That DONE is tested on the new index is assumption 7. -/
def Obligations.CompleteWrites : Prop :=
  ∀ (r : Result) (s : State),
    (∀ e, r = .err e →
      s.complete r =
        { s with
          result := some r, results := s.results ++ [r], op := none, phase := .idle, txq := [], txSent := 0
          rxWant := 0, rxBuf := [], status := .halted s.hpc e.kind }) ∧
    ((∀ e, r ≠ .err e) →
      s.complete r =
        { s with
          result := some r, results := s.results ++ [r], op := none, phase := .idle, txq := [], txSent := 0
          rxWant := 0, rxBuf := [], hpc := s.hpc + 1
          status := if s.hpc + 1 = s.prog.length then .done else s.status })

/-- A step runs the decoded instruction: ISSUE executes the entry at `H.hpc` (R32), and an awaited acknowledgement
byte is executed as the row it decodes to, each at the state as it stands. That an acknowledgement byte is an
instruction, where R85 only has the table record its format, is assumption 8. -/
def Obligations.StepRunsDecodedInstruction : Prop :=
  (∀ (s : State) (c : ProgCell), s.HostReady → s.prog[s.hpc]? = some c → step s = exec (decodeCell c) s) ∧
    (∀ (s : State) (a : Byte) (more : List RxAnswer), s.phase = .ackWait → Unstopped s →
      s.rxAnswers = .byte a :: more → step s = exec (decodeAck a) s)

/-- R31, R176, R177: once a fault or a refusal is recorded, no step of the machine and no instruction has a next
state, and no program can be loaded. That such a state answers the fault or the refusal it holds, where a waiting
or final one answers itself, is assumption 11. -/
def Obligations.StoppedMachineHasNoStep : Prop :=
  (∀ (s : State) (f : ModelFault), s.fault = some f →
      step s = .fault (.recorded f) ∧ ∀ i, exec i s = .fault (.recorded f)) ∧
    (∀ (s : State) (r : RefusalReason), s.fault = none → s.refused = some r →
      step s = .refused (.recorded r) ∧ ∀ i, exec i s = .refused (.recorded r)) ∧
    ∀ (s : State) (P : List ProgCell), HostInv s → ¬ Unstopped s → s.loadProgram P = none

/-- R25, R207: while an operation is in progress the host issues nothing. That a step which is not enabled leaves
the state as it is, is assumption 12. -/
def Obligations.BusyBlockIssuesNothing : Prop :=
  ∀ (s : State) (i : Instr), Unstopped s → s.phase ≠ .idle → Instr.isIssued i = true → exec i s = .next s

/-- R209, R212: a block whose channel has not answered, and an idle block whose host is DONE or HALTED, stay as they
are (assumption 11). -/
def Obligations.WaitingAndFinalStatesStay : Prop :=
  ∀ s : State, Unstopped s → Waiting s ∨ s.phase = .idle ∧ s.status ≠ .running → step s = .next s

/-- R33, R65: no step writes the host program or a parameter. -/
def Obligations.StepKeepsConfiguration : Prop :=
  ∀ s t : State, step s = .next t → t.prog = s.prog ∧ t.params = s.params

/-- R30: the logs only grow, and the ghost error flags are never cleared. -/
def Obligations.GhostLogsOnlyGrow : Prop :=
  ∀ s t : State, step s = .next t →
    (∃ bs, t.txLog = s.txLog ++ bs ∧ bs.length ≤ 1) ∧ (∃ bs, t.rxLog = s.rxLog ++ bs ∧ bs.length ≤ 1) ∧
      (s.errIo = true → t.errIo = true) ∧ (s.errProtocol = true → t.errProtocol = true)

/-- R30: no step reads the ghost fields. Two states that differ in them alone step alike: to states that again
differ in them alone, to the same fault, or to the same refusal. Beside the four fields of R30 they are the counts
of assumption 15. -/
def Obligations.StepIgnoresGhostState : Prop :=
  ∀ s t : State, SameButGhost s t →
    (∀ s', step s = .next s' → ∃ t', step t = .next t' ∧ SameButGhost s' t') ∧
    (∀ f, step s = .fault f → step t = .fault f) ∧
    (∀ r, step s = .refused r → step t = .refused r)

/-- R53, R62: the block never reads while it transmits, never writes while it awaits or reads, and does neither
between operations. -/
def Obligations.ChannelIsUsedOneWay : Prop :=
  ∀ s t : State, step s = .next t →
    (s.phase = .tx → t.rxLog = s.rxLog ∧ t.rxAnswers = s.rxAnswers) ∧
    (s.phase = .ackWait ∨ s.phase = .payload → t.txLog = s.txLog ∧ t.txAnswers = s.txAnswers) ∧
    (s.phase = .idle →
      t.txLog = s.txLog ∧ t.rxLog = s.rxLog ∧ t.txAnswers = s.txAnswers ∧ t.rxAnswers = s.rxAnswers)

/-- R23, R38: a step leaves `H.hpc` or advances it by exactly 1, the latter when and only when an operation
completes without error. -/
def Obligations.HostIndexAdvancesByOne : Prop :=
  ∀ s t : State, step s = .next t →
    (t.results = s.results ∧ t.hpc = s.hpc) ∨
      ∃ r, t.results = s.results ++ [r] ∧ t.result = some r ∧
        ((∃ e, r = .err e) ∧ t.hpc = s.hpc ∨ (∀ e, r ≠ .err e) ∧ t.hpc = s.hpc + 1)

/-- R32: a program is loaded only while the block is idle and the host is not running one; loading starts it from
its first operation, an empty one is DONE from the start, and the block state stays as it is. That it drops the
report of the program before is assumption 9. -/
def Obligations.LoadingStartsProgram : Prop :=
  ∀ (s : State) (P : List ProgCell),
    (s.phase = .idle ∧ s.status ≠ .running →
      s.loadProgram P = some
        { s with
          prog := P, hpc := 0, results := [], hostReport := none
          status := if 0 < P.length then .running else .done }) ∧
    (¬ (s.phase = .idle ∧ s.status ≠ .running) → s.loadProgram P = none)

/-! ### Reset, invariants and progress -/

/-- R200: reset sets every field of the block state to its reset value, the host's index to 0, and the status to
DONE, its program being empty. That no program is there is assumption 3. -/
def Obligations.ResetLeaves : Prop :=
  State.reset.phase = .idle ∧ State.reset.op = none ∧ State.reset.txq = [] ∧ State.reset.txSent = 0 ∧
    State.reset.ackPending = false ∧ State.reset.rxWant = 0 ∧ State.reset.rxBuf = [] ∧
    State.reset.result = none ∧ State.reset.fault = none ∧ State.reset.refused = none ∧
    State.reset.errIo = false ∧ State.reset.errProtocol = false ∧ State.reset.txLog = [] ∧
    State.reset.rxLog = [] ∧ State.reset.hpc = 0 ∧ State.reset.prog = [] ∧ State.reset.status = .done

/-- The invariants hold at reset, and so does `CleanEntry` (R204), for all parameters R9 allows. -/
def Obligations.ResetMeetsInvariants : Prop :=
  ∀ p : Params, p.wf = true →
    BlockInv { State.reset with params := p } ∧ HostInv { State.reset with params := p } ∧
      CountInv { State.reset with params := p } ∧ CleanEntry { State.reset with params := p }

/-- R35 items 1 to 6, R27, R28: every step keeps the block's invariant. -/
def Obligations.StepKeepsBlockInv : Prop :=
  ∀ s t : State, BlockInv s → step s = .next t → BlockInv t

/-- R32, R38, R86, R212: every step keeps the host's bookkeeping: each completed operation has left a result of its
form, and HALTED names the operation that failed, whose error `S.result` holds. What it says of the host's report is
assumption 9. -/
def Obligations.StepKeepsHostInv : Prop :=
  ∀ s t : State, HostInv s → step s = .next t → HostInv t

/-- R26, R35 item 7: every step keeps the count: every command sent whole has its acknowledgement read or
outstanding. The two counts are assumption 15. -/
def Obligations.StepKeepsCounts : Prop :=
  ∀ s t : State, BlockInv s → CountInv s → step s = .next t → CountInv t

/-- R35: its seven items hold in every state the machine can come to, by its steps, by the loading of programs and
by any answers of the channel, with any parameters R9 allows. Item 7 is said in the counts of assumption 15. -/
def Obligations.ReachableStatesKeepR35 : Prop :=
  ∀ s : State, Reachable s →
    (s.phase = .idle ↔ s.op = none) ∧
    (s.phase ≠ .tx → s.txq = []) ∧
    (s.phase ≠ .ackWait ∧ s.phase ≠ .payload → s.rxWant = 0 ∧ s.rxBuf = []) ∧
    (s.phase = .ackWait → s.rxBuf = []) ∧
    (s.phase = .tx → s.ackPending = false) ∧
    (s.phase = .ackWait ∨ s.phase = .payload → s.ackPending = true) ∧
    s.awaitsDone ≤ s.sendsDone ∧
    (s.ackPending = false → s.phase = .idle → s.awaitsDone = s.sendsDone)

/-- R212: in every state the machine can come to, a run that is not RUNNING is over as R212 says: the block is idle,
no fault and no refusal is recorded, and the run is DONE, or it is HALTED at an operation of its program whose error
its result and `S.result` hold. That DONE also ends a program whose pre-check failed is assumption 9. -/
def Obligations.EndedRunsAreFinal : Prop :=
  ∀ s : State, Reachable s → s.status ≠ .running → Final s

/-- R209: if the channel answers every access, a transmission ends: with at least as many answers in hand as bytes
left, some number of steps, no more than the bytes left, brings the block back to idle. -/
def Obligations.AnsweredTransmissionEnds : Prop :=
  ∀ s : State, BlockInv s → Unstopped s → s.phase = .tx → s.txq.length ≤ s.txAnswers.length →
    ∃ (k : Nat) (t : State), k ≤ s.txq.length ∧ runFor k s = .next t ∧ t.phase = .idle

/-- R209: if the channel answers every access, an AWAIT_ACK ends: with answers in hand for the acknowledgement and
the payload wanted, some number of steps, no more than those accesses, brings the block back to idle. -/
def Obligations.AnsweredAwaitEnds : Prop :=
  ∀ s : State, BlockInv s → Unstopped s → s.phase = .ackWait → s.rxWant + 1 ≤ s.rxAnswers.length →
    ∃ (k : Nat) (t : State), k ≤ s.rxWant + 1 ∧ runFor k s = .next t ∧ t.phase = .idle

/-! ### The façade's expansions -/

/-- R93: a polyline is one command: the variant's opcode, the vertex count, every X in order, every Y in order,
the colour; coordinate lists of different lengths are turned away before anything is sent. -/
def Obligations.PolylineLayout : Prop :=
  ∀ (c : Catalogue) (xs ys : List Word) (color : Word) (variant : PolyVariant),
    (xs.length = ys.length → xs.length ≤ 65535 → ∀ s : State,
      ∃ (vs : List WordOperand) (count : Word), count.toNat = xs.length ∧
        poly c xs ys color variant = .ok [.sendWords vs, .awaitAck c.respPoly] ∧
        WordsGive s vs ([c.opcPoly variant, count] ++ xs ++ ys ++ [color])) ∧
    (xs.length ≠ ys.length → poly c xs ys color variant = .error .validation)

/-- R92: PUT_STRING is the raw-byte command, its acknowledgement with two bytes, and the Word they make; a string
of more than 511 characters expands to nothing; the echoed length must be the string's. -/
def Obligations.PutStringExpansion : Prop :=
  ∀ (c : Catalogue) (text : List Char) (i : Nat),
    (text.length ≤ 511 → ∀ s : State,
      ∃ vs : List ByteOperand,
        putString c i text =
          .ok [.sendRaw vs, .awaitAck 2, .decodeWord (.ref (i + 1) 0) (.ref (i + 1) 1)] ∧
        BytesGive s vs ([0x00, 0x18] ++ text.map c.code ++ [0x00])) ∧
    (511 < text.length → putString c i text = .error .validation) ∧
    (∀ w : Word, putStringCheck text w = .ok () ↔ w.toNat = text.length) ∧
    (∀ w : Word, w.toNat ≠ text.length →
      putStringCheck text w = .error (.consistency text.length w.toNat))

/-- R95, C4: the command CONTRAST_ON sends after a set to a non-zero value and an OFF is the set to that value. -/
def Obligations.ContrastSurvivesOff : Prop :=
  ∀ (c : Catalogue) (d : DisplayState) (v : Word) (i : Nat), v ≠ 0 →
    contrastOn c i ((d.afterSet v).afterSet 0) =
      [.sendWords [.lit c.opcContrast.toNat, .lit v.toNat], .awaitAck 2,
        .decodeWord (.ref (i + 1) 0) (.ref (i + 1) 1)]

/-- R56, R205: sent in word mode with each byte as its own Word, the bytes of a byte-oriented command each bring a
zero byte before them, so a non-empty one never has the image it has in raw-byte mode. -/
def Obligations.WrongModeChangesTheBytes : Prop :=
  ∀ bs : List Byte,
    wordImage (bs.map fun b => BitVec.zeroExtend 16 b) = bs.flatMap (fun b => [0x00, b]) ∧
      (bs ≠ [] → wordImage (bs.map fun b => BitVec.zeroExtend 16 b) ≠ bs)
end

