-- ==== Sys2Proof/Laws/State.lean ====
section
/-! SUPPORT. One lemma per field per update of the state, so that no later proof unfolds a record update. -/

namespace Sys2Proof.Machine

section Updates

variable (s : State)

/-! ### `State.complete` -/

@[simp] theorem State.complete_phase (r : Result) : (s.complete r).phase = .idle := rfl
@[simp] theorem State.complete_op (r : Result) : (s.complete r).op = none := rfl
@[simp] theorem State.complete_txq (r : Result) : (s.complete r).txq = [] := rfl
@[simp] theorem State.complete_txSent (r : Result) : (s.complete r).txSent = 0 := rfl
@[simp] theorem State.complete_ackPending (r : Result) : (s.complete r).ackPending = s.ackPending := rfl
@[simp] theorem State.complete_rxWant (r : Result) : (s.complete r).rxWant = 0 := rfl
@[simp] theorem State.complete_rxBuf (r : Result) : (s.complete r).rxBuf = [] := rfl
@[simp] theorem State.complete_result (r : Result) : (s.complete r).result = some r := rfl
@[simp] theorem State.complete_fault (r : Result) : (s.complete r).fault = s.fault := rfl
@[simp] theorem State.complete_refused (r : Result) : (s.complete r).refused = s.refused := rfl
@[simp] theorem State.complete_errIo (r : Result) : (s.complete r).errIo = s.errIo := rfl
@[simp] theorem State.complete_errProtocol (r : Result) : (s.complete r).errProtocol = s.errProtocol := rfl
@[simp] theorem State.complete_txLog (r : Result) : (s.complete r).txLog = s.txLog := rfl
@[simp] theorem State.complete_rxLog (r : Result) : (s.complete r).rxLog = s.rxLog := rfl
@[simp] theorem State.complete_prog (r : Result) : (s.complete r).prog = s.prog := rfl
@[simp] theorem State.complete_hpc (r : Result) : (s.complete r).hpc = s.hpcAfter r := rfl
@[simp] theorem State.complete_status (r : Result) : (s.complete r).status = s.statusAfter r := rfl
@[simp] theorem State.complete_results (r : Result) : (s.complete r).results = s.results ++ [r] := rfl
@[simp] theorem State.complete_params (r : Result) : (s.complete r).params = s.params := rfl
@[simp] theorem State.complete_txAnswers (r : Result) : (s.complete r).txAnswers = s.txAnswers := rfl
@[simp] theorem State.complete_rxAnswers (r : Result) : (s.complete r).rxAnswers = s.rxAnswers := rfl
@[simp] theorem State.complete_sendsDone (r : Result) : (s.complete r).sendsDone = s.sendsDone := rfl
@[simp] theorem State.complete_awaitsDone (r : Result) : (s.complete r).awaitsDone = s.awaitsDone := rfl
@[simp] theorem State.complete_hostReport (r : Result) : (s.complete r).hostReport = s.hostReport := rfl

/-! ### `State.noteError` -/

@[simp] theorem State.noteError_phase (e : BlockError) : (s.noteError e).phase = s.phase := rfl
@[simp] theorem State.noteError_op (e : BlockError) : (s.noteError e).op = s.op := rfl
@[simp] theorem State.noteError_txq (e : BlockError) : (s.noteError e).txq = s.txq := rfl
@[simp] theorem State.noteError_txSent (e : BlockError) : (s.noteError e).txSent = s.txSent := rfl
@[simp] theorem State.noteError_ackPending (e : BlockError) : (s.noteError e).ackPending = s.ackPending := rfl
@[simp] theorem State.noteError_rxWant (e : BlockError) : (s.noteError e).rxWant = s.rxWant := rfl
@[simp] theorem State.noteError_rxBuf (e : BlockError) : (s.noteError e).rxBuf = s.rxBuf := rfl
@[simp] theorem State.noteError_result (e : BlockError) : (s.noteError e).result = s.result := rfl
@[simp] theorem State.noteError_fault (e : BlockError) : (s.noteError e).fault = s.fault := rfl
@[simp] theorem State.noteError_refused (e : BlockError) : (s.noteError e).refused = s.refused := rfl
@[simp] theorem State.noteError_errIo (e : BlockError) : (s.noteError e).errIo = (s.errIo || (e.kind == .ioError)) := rfl
@[simp] theorem State.noteError_errProtocol (e : BlockError) : (s.noteError e).errProtocol = (s.errProtocol || (e.kind == .protocolError)) := rfl
@[simp] theorem State.noteError_txLog (e : BlockError) : (s.noteError e).txLog = s.txLog := rfl
@[simp] theorem State.noteError_rxLog (e : BlockError) : (s.noteError e).rxLog = s.rxLog := rfl
@[simp] theorem State.noteError_prog (e : BlockError) : (s.noteError e).prog = s.prog := rfl
@[simp] theorem State.noteError_hpc (e : BlockError) : (s.noteError e).hpc = s.hpc := rfl
@[simp] theorem State.noteError_status (e : BlockError) : (s.noteError e).status = s.status := rfl
@[simp] theorem State.noteError_results (e : BlockError) : (s.noteError e).results = s.results := rfl
@[simp] theorem State.noteError_params (e : BlockError) : (s.noteError e).params = s.params := rfl
@[simp] theorem State.noteError_txAnswers (e : BlockError) : (s.noteError e).txAnswers = s.txAnswers := rfl
@[simp] theorem State.noteError_rxAnswers (e : BlockError) : (s.noteError e).rxAnswers = s.rxAnswers := rfl
@[simp] theorem State.noteError_sendsDone (e : BlockError) : (s.noteError e).sendsDone = s.sendsDone := rfl
@[simp] theorem State.noteError_awaitsDone (e : BlockError) : (s.noteError e).awaitsDone = s.awaitsDone := rfl
@[simp] theorem State.noteError_hostReport (e : BlockError) : (s.noteError e).hostReport = s.hostReport := rfl

/-! ### `State.raise` -/

@[simp] theorem State.raise_phase (e : BlockError) : (s.raise e).phase = .idle := rfl
@[simp] theorem State.raise_op (e : BlockError) : (s.raise e).op = none := rfl
@[simp] theorem State.raise_txq (e : BlockError) : (s.raise e).txq = [] := rfl
@[simp] theorem State.raise_txSent (e : BlockError) : (s.raise e).txSent = 0 := rfl
@[simp] theorem State.raise_ackPending (e : BlockError) : (s.raise e).ackPending = s.ackPending := rfl
@[simp] theorem State.raise_rxWant (e : BlockError) : (s.raise e).rxWant = 0 := rfl
@[simp] theorem State.raise_rxBuf (e : BlockError) : (s.raise e).rxBuf = [] := rfl
@[simp] theorem State.raise_result (e : BlockError) : (s.raise e).result = some (.err e) := rfl
@[simp] theorem State.raise_fault (e : BlockError) : (s.raise e).fault = s.fault := rfl
@[simp] theorem State.raise_refused (e : BlockError) : (s.raise e).refused = s.refused := rfl
@[simp] theorem State.raise_errIo (e : BlockError) : (s.raise e).errIo = (s.errIo || (e.kind == .ioError)) := rfl
@[simp] theorem State.raise_errProtocol (e : BlockError) : (s.raise e).errProtocol = (s.errProtocol || (e.kind == .protocolError)) := rfl
@[simp] theorem State.raise_txLog (e : BlockError) : (s.raise e).txLog = s.txLog := rfl
@[simp] theorem State.raise_rxLog (e : BlockError) : (s.raise e).rxLog = s.rxLog := rfl
@[simp] theorem State.raise_prog (e : BlockError) : (s.raise e).prog = s.prog := rfl
@[simp] theorem State.raise_hpc (e : BlockError) : (s.raise e).hpc = s.hpc := rfl
@[simp] theorem State.raise_status (e : BlockError) : (s.raise e).status = .halted s.hpc e.kind := rfl
@[simp] theorem State.raise_results (e : BlockError) : (s.raise e).results = s.results ++ [.err e] := rfl
@[simp] theorem State.raise_params (e : BlockError) : (s.raise e).params = s.params := rfl
@[simp] theorem State.raise_txAnswers (e : BlockError) : (s.raise e).txAnswers = s.txAnswers := rfl
@[simp] theorem State.raise_rxAnswers (e : BlockError) : (s.raise e).rxAnswers = s.rxAnswers := rfl
@[simp] theorem State.raise_sendsDone (e : BlockError) : (s.raise e).sendsDone = s.sendsDone := rfl
@[simp] theorem State.raise_awaitsDone (e : BlockError) : (s.raise e).awaitsDone = s.awaitsDone := rfl
@[simp] theorem State.raise_hostReport (e : BlockError) : (s.raise e).hostReport = s.hostReport := rfl

/-! ### `State.recordFault` -/

@[simp] theorem State.recordFault_phase (f : ModelFault) : (s.recordFault f).phase = s.phase := rfl
@[simp] theorem State.recordFault_op (f : ModelFault) : (s.recordFault f).op = s.op := rfl
@[simp] theorem State.recordFault_txq (f : ModelFault) : (s.recordFault f).txq = s.txq := rfl
@[simp] theorem State.recordFault_txSent (f : ModelFault) : (s.recordFault f).txSent = s.txSent := rfl
@[simp] theorem State.recordFault_ackPending (f : ModelFault) : (s.recordFault f).ackPending = s.ackPending := rfl
@[simp] theorem State.recordFault_rxWant (f : ModelFault) : (s.recordFault f).rxWant = s.rxWant := rfl
@[simp] theorem State.recordFault_rxBuf (f : ModelFault) : (s.recordFault f).rxBuf = s.rxBuf := rfl
@[simp] theorem State.recordFault_result (f : ModelFault) : (s.recordFault f).result = s.result := rfl
@[simp] theorem State.recordFault_fault (f : ModelFault) : (s.recordFault f).fault = some (s.fault.getD f) := rfl
@[simp] theorem State.recordFault_refused (f : ModelFault) : (s.recordFault f).refused = s.refused := rfl
@[simp] theorem State.recordFault_errIo (f : ModelFault) : (s.recordFault f).errIo = s.errIo := rfl
@[simp] theorem State.recordFault_errProtocol (f : ModelFault) : (s.recordFault f).errProtocol = s.errProtocol := rfl
@[simp] theorem State.recordFault_txLog (f : ModelFault) : (s.recordFault f).txLog = s.txLog := rfl
@[simp] theorem State.recordFault_rxLog (f : ModelFault) : (s.recordFault f).rxLog = s.rxLog := rfl
@[simp] theorem State.recordFault_prog (f : ModelFault) : (s.recordFault f).prog = s.prog := rfl
@[simp] theorem State.recordFault_hpc (f : ModelFault) : (s.recordFault f).hpc = s.hpc := rfl
@[simp] theorem State.recordFault_status (f : ModelFault) : (s.recordFault f).status = s.status := rfl
@[simp] theorem State.recordFault_results (f : ModelFault) : (s.recordFault f).results = s.results := rfl
@[simp] theorem State.recordFault_params (f : ModelFault) : (s.recordFault f).params = s.params := rfl
@[simp] theorem State.recordFault_txAnswers (f : ModelFault) : (s.recordFault f).txAnswers = s.txAnswers := rfl
@[simp] theorem State.recordFault_rxAnswers (f : ModelFault) : (s.recordFault f).rxAnswers = s.rxAnswers := rfl
@[simp] theorem State.recordFault_sendsDone (f : ModelFault) : (s.recordFault f).sendsDone = s.sendsDone := rfl
@[simp] theorem State.recordFault_awaitsDone (f : ModelFault) : (s.recordFault f).awaitsDone = s.awaitsDone := rfl
@[simp] theorem State.recordFault_hostReport (f : ModelFault) : (s.recordFault f).hostReport = s.hostReport := rfl

/-! ### `State.recordRefusal` -/

@[simp] theorem State.recordRefusal_phase (r : RefusalReason) : (s.recordRefusal r).phase = s.phase := rfl
@[simp] theorem State.recordRefusal_op (r : RefusalReason) : (s.recordRefusal r).op = s.op := rfl
@[simp] theorem State.recordRefusal_txq (r : RefusalReason) : (s.recordRefusal r).txq = s.txq := rfl
@[simp] theorem State.recordRefusal_txSent (r : RefusalReason) : (s.recordRefusal r).txSent = s.txSent := rfl
@[simp] theorem State.recordRefusal_ackPending (r : RefusalReason) : (s.recordRefusal r).ackPending = s.ackPending := rfl
@[simp] theorem State.recordRefusal_rxWant (r : RefusalReason) : (s.recordRefusal r).rxWant = s.rxWant := rfl
@[simp] theorem State.recordRefusal_rxBuf (r : RefusalReason) : (s.recordRefusal r).rxBuf = s.rxBuf := rfl
@[simp] theorem State.recordRefusal_result (r : RefusalReason) : (s.recordRefusal r).result = s.result := rfl
@[simp] theorem State.recordRefusal_fault (r : RefusalReason) : (s.recordRefusal r).fault = s.fault := rfl
@[simp] theorem State.recordRefusal_refused (r : RefusalReason) : (s.recordRefusal r).refused = some (s.refused.getD r) := rfl
@[simp] theorem State.recordRefusal_errIo (r : RefusalReason) : (s.recordRefusal r).errIo = s.errIo := rfl
@[simp] theorem State.recordRefusal_errProtocol (r : RefusalReason) : (s.recordRefusal r).errProtocol = s.errProtocol := rfl
@[simp] theorem State.recordRefusal_txLog (r : RefusalReason) : (s.recordRefusal r).txLog = s.txLog := rfl
@[simp] theorem State.recordRefusal_rxLog (r : RefusalReason) : (s.recordRefusal r).rxLog = s.rxLog := rfl
@[simp] theorem State.recordRefusal_prog (r : RefusalReason) : (s.recordRefusal r).prog = s.prog := rfl
@[simp] theorem State.recordRefusal_hpc (r : RefusalReason) : (s.recordRefusal r).hpc = s.hpc := rfl
@[simp] theorem State.recordRefusal_status (r : RefusalReason) : (s.recordRefusal r).status = s.status := rfl
@[simp] theorem State.recordRefusal_results (r : RefusalReason) : (s.recordRefusal r).results = s.results := rfl
@[simp] theorem State.recordRefusal_params (r : RefusalReason) : (s.recordRefusal r).params = s.params := rfl
@[simp] theorem State.recordRefusal_txAnswers (r : RefusalReason) : (s.recordRefusal r).txAnswers = s.txAnswers := rfl
@[simp] theorem State.recordRefusal_rxAnswers (r : RefusalReason) : (s.recordRefusal r).rxAnswers = s.rxAnswers := rfl
@[simp] theorem State.recordRefusal_sendsDone (r : RefusalReason) : (s.recordRefusal r).sendsDone = s.sendsDone := rfl
@[simp] theorem State.recordRefusal_awaitsDone (r : RefusalReason) : (s.recordRefusal r).awaitsDone = s.awaitsDone := rfl
@[simp] theorem State.recordRefusal_hostReport (r : RefusalReason) : (s.recordRefusal r).hostReport = s.hostReport := rfl

/-! ### `State.commandSent` -/

@[simp] theorem State.commandSent_phase : s.commandSent.phase = s.phase := rfl
@[simp] theorem State.commandSent_op : s.commandSent.op = s.op := rfl
@[simp] theorem State.commandSent_txq : s.commandSent.txq = s.txq := rfl
@[simp] theorem State.commandSent_txSent : s.commandSent.txSent = s.txSent := rfl
@[simp] theorem State.commandSent_ackPending : s.commandSent.ackPending = true := rfl
@[simp] theorem State.commandSent_rxWant : s.commandSent.rxWant = s.rxWant := rfl
@[simp] theorem State.commandSent_rxBuf : s.commandSent.rxBuf = s.rxBuf := rfl
@[simp] theorem State.commandSent_result : s.commandSent.result = s.result := rfl
@[simp] theorem State.commandSent_fault : s.commandSent.fault = s.fault := rfl
@[simp] theorem State.commandSent_refused : s.commandSent.refused = s.refused := rfl
@[simp] theorem State.commandSent_errIo : s.commandSent.errIo = s.errIo := rfl
@[simp] theorem State.commandSent_errProtocol : s.commandSent.errProtocol = s.errProtocol := rfl
@[simp] theorem State.commandSent_txLog : s.commandSent.txLog = s.txLog := rfl
@[simp] theorem State.commandSent_rxLog : s.commandSent.rxLog = s.rxLog := rfl
@[simp] theorem State.commandSent_prog : s.commandSent.prog = s.prog := rfl
@[simp] theorem State.commandSent_hpc : s.commandSent.hpc = s.hpc := rfl
@[simp] theorem State.commandSent_status : s.commandSent.status = s.status := rfl
@[simp] theorem State.commandSent_results : s.commandSent.results = s.results := rfl
@[simp] theorem State.commandSent_params : s.commandSent.params = s.params := rfl
@[simp] theorem State.commandSent_txAnswers : s.commandSent.txAnswers = s.txAnswers := rfl
@[simp] theorem State.commandSent_rxAnswers : s.commandSent.rxAnswers = s.rxAnswers := rfl
@[simp] theorem State.commandSent_sendsDone : s.commandSent.sendsDone = s.sendsDone + 1 := rfl
@[simp] theorem State.commandSent_awaitsDone : s.commandSent.awaitsDone = s.awaitsDone := rfl
@[simp] theorem State.commandSent_hostReport : s.commandSent.hostReport = s.hostReport := rfl

/-! ### `State.ackRetired` -/

@[simp] theorem State.ackRetired_phase : s.ackRetired.phase = s.phase := rfl
@[simp] theorem State.ackRetired_op : s.ackRetired.op = s.op := rfl
@[simp] theorem State.ackRetired_txq : s.ackRetired.txq = s.txq := rfl
@[simp] theorem State.ackRetired_txSent : s.ackRetired.txSent = s.txSent := rfl
@[simp] theorem State.ackRetired_ackPending : s.ackRetired.ackPending = false := rfl
@[simp] theorem State.ackRetired_rxWant : s.ackRetired.rxWant = s.rxWant := rfl
@[simp] theorem State.ackRetired_rxBuf : s.ackRetired.rxBuf = s.rxBuf := rfl
@[simp] theorem State.ackRetired_result : s.ackRetired.result = s.result := rfl
@[simp] theorem State.ackRetired_fault : s.ackRetired.fault = s.fault := rfl
@[simp] theorem State.ackRetired_refused : s.ackRetired.refused = s.refused := rfl
@[simp] theorem State.ackRetired_errIo : s.ackRetired.errIo = s.errIo := rfl
@[simp] theorem State.ackRetired_errProtocol : s.ackRetired.errProtocol = s.errProtocol := rfl
@[simp] theorem State.ackRetired_txLog : s.ackRetired.txLog = s.txLog := rfl
@[simp] theorem State.ackRetired_rxLog : s.ackRetired.rxLog = s.rxLog := rfl
@[simp] theorem State.ackRetired_prog : s.ackRetired.prog = s.prog := rfl
@[simp] theorem State.ackRetired_hpc : s.ackRetired.hpc = s.hpc := rfl
@[simp] theorem State.ackRetired_status : s.ackRetired.status = s.status := rfl
@[simp] theorem State.ackRetired_results : s.ackRetired.results = s.results := rfl
@[simp] theorem State.ackRetired_params : s.ackRetired.params = s.params := rfl
@[simp] theorem State.ackRetired_txAnswers : s.ackRetired.txAnswers = s.txAnswers := rfl
@[simp] theorem State.ackRetired_rxAnswers : s.ackRetired.rxAnswers = s.rxAnswers := rfl
@[simp] theorem State.ackRetired_sendsDone : s.ackRetired.sendsDone = s.sendsDone := rfl
@[simp] theorem State.ackRetired_awaitsDone : s.ackRetired.awaitsDone = s.awaitsDone + 1 := rfl
@[simp] theorem State.ackRetired_hostReport : s.ackRetired.hostReport = s.hostReport := rfl

/-! ### `State.beginTx` -/

@[simp] theorem State.beginTx_phase (o : HostOp) (image : List Byte) : (s.beginTx o image).phase = .tx := rfl
@[simp] theorem State.beginTx_op (o : HostOp) (image : List Byte) : (s.beginTx o image).op = some o := rfl
@[simp] theorem State.beginTx_txq (o : HostOp) (image : List Byte) : (s.beginTx o image).txq = image := rfl
@[simp] theorem State.beginTx_txSent (o : HostOp) (image : List Byte) : (s.beginTx o image).txSent = 0 := rfl
@[simp] theorem State.beginTx_ackPending (o : HostOp) (image : List Byte) : (s.beginTx o image).ackPending = s.ackPending := rfl
@[simp] theorem State.beginTx_rxWant (o : HostOp) (image : List Byte) : (s.beginTx o image).rxWant = s.rxWant := rfl
@[simp] theorem State.beginTx_rxBuf (o : HostOp) (image : List Byte) : (s.beginTx o image).rxBuf = s.rxBuf := rfl
@[simp] theorem State.beginTx_result (o : HostOp) (image : List Byte) : (s.beginTx o image).result = s.result := rfl
@[simp] theorem State.beginTx_fault (o : HostOp) (image : List Byte) : (s.beginTx o image).fault = s.fault := rfl
@[simp] theorem State.beginTx_refused (o : HostOp) (image : List Byte) : (s.beginTx o image).refused = s.refused := rfl
@[simp] theorem State.beginTx_errIo (o : HostOp) (image : List Byte) : (s.beginTx o image).errIo = s.errIo := rfl
@[simp] theorem State.beginTx_errProtocol (o : HostOp) (image : List Byte) : (s.beginTx o image).errProtocol = s.errProtocol := rfl
@[simp] theorem State.beginTx_txLog (o : HostOp) (image : List Byte) : (s.beginTx o image).txLog = s.txLog := rfl
@[simp] theorem State.beginTx_rxLog (o : HostOp) (image : List Byte) : (s.beginTx o image).rxLog = s.rxLog := rfl
@[simp] theorem State.beginTx_prog (o : HostOp) (image : List Byte) : (s.beginTx o image).prog = s.prog := rfl
@[simp] theorem State.beginTx_hpc (o : HostOp) (image : List Byte) : (s.beginTx o image).hpc = s.hpc := rfl
@[simp] theorem State.beginTx_status (o : HostOp) (image : List Byte) : (s.beginTx o image).status = s.status := rfl
@[simp] theorem State.beginTx_results (o : HostOp) (image : List Byte) : (s.beginTx o image).results = s.results := rfl
@[simp] theorem State.beginTx_params (o : HostOp) (image : List Byte) : (s.beginTx o image).params = s.params := rfl
@[simp] theorem State.beginTx_txAnswers (o : HostOp) (image : List Byte) : (s.beginTx o image).txAnswers = s.txAnswers := rfl
@[simp] theorem State.beginTx_rxAnswers (o : HostOp) (image : List Byte) : (s.beginTx o image).rxAnswers = s.rxAnswers := rfl
@[simp] theorem State.beginTx_sendsDone (o : HostOp) (image : List Byte) : (s.beginTx o image).sendsDone = s.sendsDone := rfl
@[simp] theorem State.beginTx_awaitsDone (o : HostOp) (image : List Byte) : (s.beginTx o image).awaitsDone = s.awaitsDone := rfl
@[simp] theorem State.beginTx_hostReport (o : HostOp) (image : List Byte) : (s.beginTx o image).hostReport = s.hostReport := rfl

/-! ### `State.txTaken` -/

@[simp] theorem State.txTaken_phase (b : Byte) (rest : List Byte) : (s.txTaken b rest).phase = s.phase := rfl
@[simp] theorem State.txTaken_op (b : Byte) (rest : List Byte) : (s.txTaken b rest).op = s.op := rfl
@[simp] theorem State.txTaken_txq (b : Byte) (rest : List Byte) : (s.txTaken b rest).txq = rest := rfl
@[simp] theorem State.txTaken_txSent (b : Byte) (rest : List Byte) : (s.txTaken b rest).txSent = s.txSent + 1 := rfl
@[simp] theorem State.txTaken_ackPending (b : Byte) (rest : List Byte) : (s.txTaken b rest).ackPending = s.ackPending := rfl
@[simp] theorem State.txTaken_rxWant (b : Byte) (rest : List Byte) : (s.txTaken b rest).rxWant = s.rxWant := rfl
@[simp] theorem State.txTaken_rxBuf (b : Byte) (rest : List Byte) : (s.txTaken b rest).rxBuf = s.rxBuf := rfl
@[simp] theorem State.txTaken_result (b : Byte) (rest : List Byte) : (s.txTaken b rest).result = s.result := rfl
@[simp] theorem State.txTaken_fault (b : Byte) (rest : List Byte) : (s.txTaken b rest).fault = s.fault := rfl
@[simp] theorem State.txTaken_refused (b : Byte) (rest : List Byte) : (s.txTaken b rest).refused = s.refused := rfl
@[simp] theorem State.txTaken_errIo (b : Byte) (rest : List Byte) : (s.txTaken b rest).errIo = s.errIo := rfl
@[simp] theorem State.txTaken_errProtocol (b : Byte) (rest : List Byte) : (s.txTaken b rest).errProtocol = s.errProtocol := rfl
@[simp] theorem State.txTaken_txLog (b : Byte) (rest : List Byte) : (s.txTaken b rest).txLog = s.txLog ++ [b] := rfl
@[simp] theorem State.txTaken_rxLog (b : Byte) (rest : List Byte) : (s.txTaken b rest).rxLog = s.rxLog := rfl
@[simp] theorem State.txTaken_prog (b : Byte) (rest : List Byte) : (s.txTaken b rest).prog = s.prog := rfl
@[simp] theorem State.txTaken_hpc (b : Byte) (rest : List Byte) : (s.txTaken b rest).hpc = s.hpc := rfl
@[simp] theorem State.txTaken_status (b : Byte) (rest : List Byte) : (s.txTaken b rest).status = s.status := rfl
@[simp] theorem State.txTaken_results (b : Byte) (rest : List Byte) : (s.txTaken b rest).results = s.results := rfl
@[simp] theorem State.txTaken_params (b : Byte) (rest : List Byte) : (s.txTaken b rest).params = s.params := rfl
@[simp] theorem State.txTaken_txAnswers (b : Byte) (rest : List Byte) : (s.txTaken b rest).txAnswers = s.txAnswers := rfl
@[simp] theorem State.txTaken_rxAnswers (b : Byte) (rest : List Byte) : (s.txTaken b rest).rxAnswers = s.rxAnswers := rfl
@[simp] theorem State.txTaken_sendsDone (b : Byte) (rest : List Byte) : (s.txTaken b rest).sendsDone = s.sendsDone := rfl
@[simp] theorem State.txTaken_awaitsDone (b : Byte) (rest : List Byte) : (s.txTaken b rest).awaitsDone = s.awaitsDone := rfl
@[simp] theorem State.txTaken_hostReport (b : Byte) (rest : List Byte) : (s.txTaken b rest).hostReport = s.hostReport := rfl

/-! ### `State.beginAck` -/

@[simp] theorem State.beginAck_phase (n : Nat) : (s.beginAck n).phase = .ackWait := rfl
@[simp] theorem State.beginAck_op (n : Nat) : (s.beginAck n).op = some (.awaitAck n) := rfl
@[simp] theorem State.beginAck_txq (n : Nat) : (s.beginAck n).txq = s.txq := rfl
@[simp] theorem State.beginAck_txSent (n : Nat) : (s.beginAck n).txSent = s.txSent := rfl
@[simp] theorem State.beginAck_ackPending (n : Nat) : (s.beginAck n).ackPending = s.ackPending := rfl
@[simp] theorem State.beginAck_rxWant (n : Nat) : (s.beginAck n).rxWant = n := rfl
@[simp] theorem State.beginAck_rxBuf (n : Nat) : (s.beginAck n).rxBuf = [] := rfl
@[simp] theorem State.beginAck_result (n : Nat) : (s.beginAck n).result = s.result := rfl
@[simp] theorem State.beginAck_fault (n : Nat) : (s.beginAck n).fault = s.fault := rfl
@[simp] theorem State.beginAck_refused (n : Nat) : (s.beginAck n).refused = s.refused := rfl
@[simp] theorem State.beginAck_errIo (n : Nat) : (s.beginAck n).errIo = s.errIo := rfl
@[simp] theorem State.beginAck_errProtocol (n : Nat) : (s.beginAck n).errProtocol = s.errProtocol := rfl
@[simp] theorem State.beginAck_txLog (n : Nat) : (s.beginAck n).txLog = s.txLog := rfl
@[simp] theorem State.beginAck_rxLog (n : Nat) : (s.beginAck n).rxLog = s.rxLog := rfl
@[simp] theorem State.beginAck_prog (n : Nat) : (s.beginAck n).prog = s.prog := rfl
@[simp] theorem State.beginAck_hpc (n : Nat) : (s.beginAck n).hpc = s.hpc := rfl
@[simp] theorem State.beginAck_status (n : Nat) : (s.beginAck n).status = s.status := rfl
@[simp] theorem State.beginAck_results (n : Nat) : (s.beginAck n).results = s.results := rfl
@[simp] theorem State.beginAck_params (n : Nat) : (s.beginAck n).params = s.params := rfl
@[simp] theorem State.beginAck_txAnswers (n : Nat) : (s.beginAck n).txAnswers = s.txAnswers := rfl
@[simp] theorem State.beginAck_rxAnswers (n : Nat) : (s.beginAck n).rxAnswers = s.rxAnswers := rfl
@[simp] theorem State.beginAck_sendsDone (n : Nat) : (s.beginAck n).sendsDone = s.sendsDone := rfl
@[simp] theorem State.beginAck_awaitsDone (n : Nat) : (s.beginAck n).awaitsDone = s.awaitsDone := rfl
@[simp] theorem State.beginAck_hostReport (n : Nat) : (s.beginAck n).hostReport = s.hostReport := rfl

/-! ### `State.rxTaken` -/

@[simp] theorem State.rxTaken_phase (b : Byte) : (s.rxTaken b).phase = s.phase := rfl
@[simp] theorem State.rxTaken_op (b : Byte) : (s.rxTaken b).op = s.op := rfl
@[simp] theorem State.rxTaken_txq (b : Byte) : (s.rxTaken b).txq = s.txq := rfl
@[simp] theorem State.rxTaken_txSent (b : Byte) : (s.rxTaken b).txSent = s.txSent := rfl
@[simp] theorem State.rxTaken_ackPending (b : Byte) : (s.rxTaken b).ackPending = s.ackPending := rfl
@[simp] theorem State.rxTaken_rxWant (b : Byte) : (s.rxTaken b).rxWant = s.rxWant := rfl
@[simp] theorem State.rxTaken_rxBuf (b : Byte) : (s.rxTaken b).rxBuf = s.rxBuf := rfl
@[simp] theorem State.rxTaken_result (b : Byte) : (s.rxTaken b).result = s.result := rfl
@[simp] theorem State.rxTaken_fault (b : Byte) : (s.rxTaken b).fault = s.fault := rfl
@[simp] theorem State.rxTaken_refused (b : Byte) : (s.rxTaken b).refused = s.refused := rfl
@[simp] theorem State.rxTaken_errIo (b : Byte) : (s.rxTaken b).errIo = s.errIo := rfl
@[simp] theorem State.rxTaken_errProtocol (b : Byte) : (s.rxTaken b).errProtocol = s.errProtocol := rfl
@[simp] theorem State.rxTaken_txLog (b : Byte) : (s.rxTaken b).txLog = s.txLog := rfl
@[simp] theorem State.rxTaken_rxLog (b : Byte) : (s.rxTaken b).rxLog = s.rxLog ++ [b] := rfl
@[simp] theorem State.rxTaken_prog (b : Byte) : (s.rxTaken b).prog = s.prog := rfl
@[simp] theorem State.rxTaken_hpc (b : Byte) : (s.rxTaken b).hpc = s.hpc := rfl
@[simp] theorem State.rxTaken_status (b : Byte) : (s.rxTaken b).status = s.status := rfl
@[simp] theorem State.rxTaken_results (b : Byte) : (s.rxTaken b).results = s.results := rfl
@[simp] theorem State.rxTaken_params (b : Byte) : (s.rxTaken b).params = s.params := rfl
@[simp] theorem State.rxTaken_txAnswers (b : Byte) : (s.rxTaken b).txAnswers = s.txAnswers := rfl
@[simp] theorem State.rxTaken_rxAnswers (b : Byte) : (s.rxTaken b).rxAnswers = s.rxAnswers.tail := rfl
@[simp] theorem State.rxTaken_sendsDone (b : Byte) : (s.rxTaken b).sendsDone = s.sendsDone := rfl
@[simp] theorem State.rxTaken_awaitsDone (b : Byte) : (s.rxTaken b).awaitsDone = s.awaitsDone := rfl
@[simp] theorem State.rxTaken_hostReport (b : Byte) : (s.rxTaken b).hostReport = s.hostReport := rfl

/-! ### `State.hostError` -/

@[simp] theorem State.hostError_phase (e : HostError) : (s.hostError e).phase = s.phase := rfl
@[simp] theorem State.hostError_op (e : HostError) : (s.hostError e).op = s.op := rfl
@[simp] theorem State.hostError_txq (e : HostError) : (s.hostError e).txq = s.txq := rfl
@[simp] theorem State.hostError_txSent (e : HostError) : (s.hostError e).txSent = s.txSent := rfl
@[simp] theorem State.hostError_ackPending (e : HostError) : (s.hostError e).ackPending = s.ackPending := rfl
@[simp] theorem State.hostError_rxWant (e : HostError) : (s.hostError e).rxWant = s.rxWant := rfl
@[simp] theorem State.hostError_rxBuf (e : HostError) : (s.hostError e).rxBuf = s.rxBuf := rfl
@[simp] theorem State.hostError_result (e : HostError) : (s.hostError e).result = s.result := rfl
@[simp] theorem State.hostError_fault (e : HostError) : (s.hostError e).fault = s.fault := rfl
@[simp] theorem State.hostError_refused (e : HostError) : (s.hostError e).refused = s.refused := rfl
@[simp] theorem State.hostError_errIo (e : HostError) : (s.hostError e).errIo = s.errIo := rfl
@[simp] theorem State.hostError_errProtocol (e : HostError) : (s.hostError e).errProtocol = s.errProtocol := rfl
@[simp] theorem State.hostError_txLog (e : HostError) : (s.hostError e).txLog = s.txLog := rfl
@[simp] theorem State.hostError_rxLog (e : HostError) : (s.hostError e).rxLog = s.rxLog := rfl
@[simp] theorem State.hostError_prog (e : HostError) : (s.hostError e).prog = s.prog := rfl
@[simp] theorem State.hostError_hpc (e : HostError) : (s.hostError e).hpc = s.hpc := rfl
@[simp] theorem State.hostError_status (e : HostError) : (s.hostError e).status = .done := rfl
@[simp] theorem State.hostError_results (e : HostError) : (s.hostError e).results = s.results := rfl
@[simp] theorem State.hostError_params (e : HostError) : (s.hostError e).params = s.params := rfl
@[simp] theorem State.hostError_txAnswers (e : HostError) : (s.hostError e).txAnswers = s.txAnswers := rfl
@[simp] theorem State.hostError_rxAnswers (e : HostError) : (s.hostError e).rxAnswers = s.rxAnswers := rfl
@[simp] theorem State.hostError_sendsDone (e : HostError) : (s.hostError e).sendsDone = s.sendsDone := rfl
@[simp] theorem State.hostError_awaitsDone (e : HostError) : (s.hostError e).awaitsDone = s.awaitsDone := rfl
@[simp] theorem State.hostError_hostReport (e : HostError) : (s.hostError e).hostReport = some (s.hpc, e) := rfl

end Updates

end Sys2Proof.Machine
end

