-- ==== Sys2Proof/Laws/Ops.lean ====
section
/-! SUPPORT. One lemma per shared operation that says once what it can do; later proofs cite it and do not unfold
the operation. -/

namespace Sys2Proof.Machine

/-! ### Stopped states and ISSUE -/

theorem State.unlessStopped_eq {s : State} {k : Step} (hf : s.fault = none) (hr : s.refused = none) :
    s.unlessStopped k = k := by
  simp [State.unlessStopped, hf, hr]

theorem State.unlessStopped_next {s t : State} {k : Step} (h : s.unlessStopped k = .next t) :
    s.fault = none ∧ s.refused = none ∧ k = .next t := by
  unfold State.unlessStopped at h
  split at h
  · cases h
  · rename_i hf
    split at h
    · cases h
    · rename_i hr
      exact ⟨hf, hr, h⟩

theorem State.HostReady.unstopped {s : State} (h : s.HostReady) : Unstopped s := ⟨h.2.2.2.1, h.2.2.2.2.1⟩

theorem State.issue_accepted {s : State} (h : s.HostReady) (body : State) :
    s.issue none body = .next body := by
  rw [State.issue, State.unlessStopped_eq h.unstopped.1 h.unstopped.2, if_pos h]

theorem State.issue_refused {s : State} (h : s.HostReady) (r : RefusalReason) (body : State) :
    s.issue (some r) body = .next { s with refused := some r } := by
  rw [State.issue, State.unlessStopped_eq h.unstopped.1 h.unstopped.2, if_pos h]
  simp [State.recordRefusal, h.unstopped.2]

/-- All that ISSUE can do: nothing where it is not enabled, else record the refusal or leave the body. -/
theorem State.issue_next {s t body : State} {refusal : Option RefusalReason}
    (h : s.issue refusal body = .next t) :
    Unstopped s ∧ (¬ s.HostReady ∧ t = s ∨
      s.HostReady ∧ ((∃ r, refusal = some r ∧ t = s.recordRefusal r) ∨ refusal = none ∧ t = body)) := by
  obtain ⟨hf, hr, h⟩ := State.unlessStopped_next h
  refine ⟨⟨hf, hr⟩, ?_⟩
  split at h
  · rename_i hready
    refine .inr ⟨hready, ?_⟩
    cases refusal with
    | none => exact .inr ⟨rfl, by cases h; rfl⟩
    | some r => exact .inl ⟨r, rfl, by cases h; rfl⟩
  · rename_i hready
    exact .inl ⟨hready, by cases h; rfl⟩

/-! ### Operands -/

theorem refusalOf_none {hpc : Nat} {values : List Int} {bad : Bool} :
    refusalOf hpc values bad = none ↔ values = [] ∧ bad = false := by
  unfold refusalOf
  split
  · cases bad <;> simp_all
  · split <;> simp_all

theorem State.program_getElem? (s : State) (k : Nat) : s.program[k]? = s.prog[k]?.map decodeCell := by
  simp [State.program]

theorem wordGives_spec {s : State} {v : WordOperand} {w : Word} (h : WordGives s v w) :
    wordOutOfRange v = [] ∧ wordBadRef s v = false ∧ wordValue s.results v = w := by
  cases v with
  | lit x =>
    obtain ⟨h0, h1, h2⟩ := h
    refine ⟨by simp [wordOutOfRange, h0, h1], rfl, ?_⟩
    rw [wordValue, ← h2]
    exact BitVec.eq_of_toNat_eq (by simp)
  | ref k =>
    obtain ⟨hk, ⟨hi, lo, hp⟩, hr⟩ := h
    refine ⟨rfl, ?_, ?_⟩
    · simp [wordBadRef, WordOperand.refWf, hk, hp, Instr.givesWord, resultWord?, hr]
    · simp [wordValue, resultWord?, hr]

theorem byteGives_spec {s : State} {v : ByteOperand} {b : Byte} (h : ByteGives s v b) :
    byteOutOfRange v = [] ∧ byteBadRef s v = false ∧ byteValue s.results v = b := by
  cases v with
  | lit x =>
    obtain ⟨h0, h1, h2⟩ := h
    refine ⟨by simp [byteOutOfRange, h0, h1], rfl, ?_⟩
    rw [byteValue, ← h2]
    exact BitVec.eq_of_toNat_eq (by simp)
  | ref k j =>
    obtain ⟨hk, h | h⟩ := h
    · obtain ⟨n, bs, hp, hn, hj, hr, hb⟩ := h
      refine ⟨rfl, ?_, ?_⟩
      · simp [byteBadRef, ByteOperand.refWf, hk, hp, Instr.givesByte, resultByte?, hr, hb, hn, hj]
      · simp [byteValue, resultByte?, hr, hb]
    · obtain ⟨v, hi, lo, hp, hr, ⟨rfl, rfl⟩ | ⟨rfl, rfl⟩⟩ := h
      · refine ⟨rfl, ?_, ?_⟩
        · simp [byteBadRef, ByteOperand.refWf, hk, hp, Instr.givesByte, resultByte?, hr]
        · simp [byteValue, resultByte?, hr]
      · refine ⟨rfl, ?_, ?_⟩
        · simp [byteBadRef, ByteOperand.refWf, hk, hp, Instr.givesByte, resultByte?, hr]
        · simp [byteValue, resultByte?, hr]

theorem wordsGive_spec {s : State} {vs : List WordOperand} {ws : List Word} (h : WordsGive s vs ws) :
    refusalOfWords s vs = none ∧ wordValues s vs = ws := by
  unfold WordsGive at h
  have : vs.flatMap wordOutOfRange = [] ∧ vs.any (wordBadRef s) = false ∧ wordValues s vs = ws := by
    induction h with
    | nil => exact ⟨rfl, rfl, rfl⟩
    | cons h _ ih =>
      obtain ⟨h1, h2, h3⟩ := wordGives_spec h
      obtain ⟨i1, i2, i3⟩ := ih
      refine ⟨by rw [List.flatMap_cons, h1, i1]; rfl, by rw [List.any_cons, h2, i2]; rfl, ?_⟩
      simpa [wordValues, h3] using i3
  exact ⟨refusalOf_none.mpr ⟨this.1, this.2.1⟩, this.2.2⟩

theorem bytesGive_spec {s : State} {vs : List ByteOperand} {bs : List Byte} (h : BytesGive s vs bs) :
    refusalOfBytes s vs = none ∧ byteValues s vs = bs := by
  unfold BytesGive at h
  have : vs.flatMap byteOutOfRange = [] ∧ vs.any (byteBadRef s) = false ∧ byteValues s vs = bs := by
    induction h with
    | nil => exact ⟨rfl, rfl, rfl⟩
    | cons h _ ih =>
      obtain ⟨h1, h2, h3⟩ := byteGives_spec h
      obtain ⟨i1, i2, i3⟩ := ih
      refine ⟨by rw [List.flatMap_cons, h1, i1]; rfl, by rw [List.any_cons, h2, i2]; rfl, ?_⟩
      simpa [byteValues, h3] using i3
  exact ⟨refusalOf_none.mpr ⟨this.1, this.2.1⟩, this.2.2⟩

/-! ### Word frames -/

theorem hiByte_toNat (w : Word) : (hiByte w).toNat = w.toNat / 256 := by
  have := w.isLt
  simp [hiByte, BitVec.extractLsb', Nat.shiftRight_eq_div_pow]
  omega

theorem loByte_toNat (w : Word) : (loByte w).toNat = w.toNat % 256 := by
  simp [loByte, BitVec.extractLsb']

theorem joinBytes_toNat (hi lo : Byte) : (joinBytes hi lo).toNat = hi.toNat * 256 + lo.toNat := by
  have := hi.isLt
  have := lo.isLt
  simp [joinBytes]
  omega

@[simp] theorem hiByte_joinBytes (hi lo : Byte) : hiByte (joinBytes hi lo) = hi := by
  have := lo.isLt
  exact BitVec.eq_of_toNat_eq (by rw [hiByte_toNat, joinBytes_toNat]; omega)

@[simp] theorem loByte_joinBytes (hi lo : Byte) : loByte (joinBytes hi lo) = lo := by
  have := lo.isLt
  exact BitVec.eq_of_toNat_eq (by rw [loByte_toNat, joinBytes_toNat]; omega)

@[simp] theorem joinBytes_hiByte_loByte (w : Word) : joinBytes (hiByte w) (loByte w) = w :=
  BitVec.eq_of_toNat_eq (by rw [joinBytes_toNat, hiByte_toNat, loByte_toNat]; omega)

@[simp] theorem wordImage_length (ws : List Word) : (wordImage ws).length = 2 * ws.length := by
  induction ws with
  | nil => rfl
  | cons w ws ih => simp [wordImage, ih]; omega

/-! ### The issue of a command and of an AWAIT_ACK -/

theorem imageTooLong_eq_false {p : Params} {len : Nat} : imageTooLong p len = false ↔ FitsCommand p len := by
  unfold imageTooLong FitsCommand
  cases p.maxCmdBytes <;> simp

theorem State.startTx_accepted {s : State} {o : HostOp} {image : List Byte} (ha : s.ackPending = false)
    (hl : 2 ≤ image.length) (hm : FitsCommand s.params image.length) :
    s.startTx o image = s.beginTx o image := by
  rw [State.startTx, if_neg (by simp [ha]), if_neg (by omega), if_neg (by simp [imageTooLong_eq_false.mpr hm])]

/-- All that `StartTX` can do (R124). -/
theorem State.startTx_cases (s : State) (o : HostOp) (image : List Byte) :
    (∃ f, s.startTx o image = s.recordFault f) ∨
      s.ackPending = false ∧ 2 ≤ image.length ∧ FitsCommand s.params image.length ∧
        s.startTx o image = s.beginTx o image := by
  unfold State.startTx
  split
  · exact .inl ⟨_, rfl⟩
  · split
    · exact .inl ⟨_, rfl⟩
    · split
      · exact .inl ⟨_, rfl⟩
      · rename_i h1 h2 h3
        exact .inr ⟨by simpa using h1, by omega, imageTooLong_eq_false.mp (by simpa using h3), rfl⟩

theorem State.startAck_accepted {s : State} {n : Nat} (ha : s.ackPending = true) (hn : n ≤ s.params.maxResp) :
    s.startAck n = s.beginAck n := by
  rw [State.startAck, if_pos ha, if_neg (by omega)]

/-- All that the issue of AWAIT_ACK can do (R140). -/
theorem State.startAck_cases (s : State) (n : Nat) :
    (∃ f, s.startAck n = s.recordFault f) ∨
      s.ackPending = true ∧ n ≤ s.params.maxResp ∧ s.startAck n = s.beginAck n := by
  unfold State.startAck
  split
  · split
    · exact .inl ⟨_, rfl⟩
    · exact .inr ⟨by assumption, by omega, rfl⟩
  · exact .inl ⟨_, rfl⟩

/-! ### The block steps -/

/-- All that a TX step can do (R125, R126). -/
theorem State.txStep_next {s t : State} {ans : TxAnswer} (h : s.txStep ans = .next t) :
    ∃ b rest, s.txq = b :: rest ∧
      (ans = .ok ∧ rest ≠ [] ∧ t = { s with txAnswers := s.txAnswers.tail }.txTaken b rest ∨
        ans = .ok ∧ rest = [] ∧
          t = (({ s with txAnswers := s.txAnswers.tail }.txTaken b []).commandSent).complete
            (.sent (s.txSent + 1)) ∨
        ans = .fail ∧
          t = { s with txAnswers := s.txAnswers.tail }.raise (.ioWrite s.txSent (s.txSent + s.txq.length))) := by
  unfold State.txStep at h
  cases hq : s.txq with
  | nil => simp [hq] at h
  | cons b rest =>
    refine ⟨b, rest, rfl, ?_⟩
    rw [hq] at h
    cases ans with
    | fail => exact .inr (.inr ⟨rfl, by cases h; rfl⟩)
    | ok =>
      by_cases hrest : rest = []
      · subst hrest
        exact .inr (.inl ⟨rfl, rfl, by cases h; rfl⟩)
      · simp only [if_neg hrest] at h
        exact .inl ⟨rfl, hrest, by cases h; rfl⟩

/-- All that the RX acknowledgement step can do with a byte (R143). -/
theorem State.rxAckByte_cases (s : State) (a : Byte) :
    a = 0x06 ∧ s.rxWant = 0 ∧ s.rxAckByte a = ((s.rxTaken a).ackRetired).complete .noData ∨
      a = 0x06 ∧ s.rxWant ≠ 0 ∧ s.rxAckByte a = { s.rxTaken a with phase := .payload } ∨
      a ≠ 0x06 ∧ s.rxAckByte a = ((s.rxTaken a).ackRetired).raise (.protocol a) := by
  unfold State.rxAckByte isAck Config.ack
  by_cases ha : a = 0x06
  · subst ha
    by_cases hw : s.rxWant = 0
    · exact .inl ⟨rfl, hw, by simp [hw]⟩
    · exact .inr (.inl ⟨rfl, hw, by simp [hw]⟩)
  · exact .inr (.inr ⟨ha, by rw [if_neg (by simpa using ha)]⟩)

theorem State.ackByte_next {s t : State} {a : Byte} (h : s.ackByte a = .next t) :
    Unstopped s ∧ (s.phase = .ackWait ∧ t = s.rxAckByte a ∨ s.phase ≠ .ackWait ∧ t = s) := by
  obtain ⟨hf, hr, h⟩ := State.unlessStopped_next h
  refine ⟨⟨hf, hr⟩, ?_⟩
  split at h
  · exact .inl ⟨by assumption, by cases h; rfl⟩
  · exact .inr ⟨by assumption, by cases h; rfl⟩

end Sys2Proof.Machine
end

