-- ==== Sys2Proof/Laws/PerInstr.lean ====
section
/-! SUPPORT. Statements for all instructions, one lemma per constructor of `Instr`. -/

namespace Sys2Proof.Laws

/-- A row of spec/opcode_table.json: how many bits it fixes or leaves open, its mask and its match. -/
structure Row where
  nbits : Nat
  mask : Nat
  bits : Nat
  deriving DecidableEq, Repr

/-- The row an instruction stands for. The reserved row's note takes every reserved header, so its bits are the
header's own; the two rows with no fixed bit have mask 0. -/
def rowOf : Instr → Row
  | .encodeWord _ => ⟨8, 0xFF, 0x00⟩
  | .decodeWord _ _ => ⟨8, 0xFF, 0x01⟩
  | .sendWords _ => ⟨8, 0xFF, 0x02⟩
  | .sendRaw _ => ⟨8, 0xFF, 0x03⟩
  | .awaitAck _ => ⟨8, 0xFF, 0x04⟩
  | .reservedHostop header => ⟨8, 0xFF, header.toNat⟩
  | .wordFrame _ _ => ⟨16, 0x0000, 0x0000⟩
  | .ackAccepted => ⟨8, 0xFF, 0x06⟩
  | .notAck _ => ⟨8, 0x00, 0x00⟩
  | .putString _ => ⟨16, 0xFFFF, 0x0018⟩

/-- The bits of a binary form that a row speaks of, as the table numbers them: how many, and their value. -/
def tableBits : Encoded → Option (Nat × Nat)
  | .cell (.hostOp header _) => some (8, header.toNat)
  | .cell (.frame h l) => some (16, h.toNat * 256 + l.toNat)
  | .cell (.raw (.lit b0 :: .lit b1 :: _)) => some (16, b0.toNat * 256 + b1.toNat)
  | .cell (.raw _) => none
  | .rxByte a => some (8, a.toNat)

/-- The encoder writes a word of the instruction's own row. -/
def EncodesToRow.Statement (i : Instr) : Prop :=
  ∃ w, tableBits (encode i) = some ((rowOf i).nbits, w) ∧ w &&& (rowOf i).mask = (rowOf i).bits

theorem EncodesToRow.encodeWord (v : WordOperand) : EncodesToRow.Statement (.encodeWord v) := ⟨0x00, rfl, by simp [rowOf]⟩

theorem EncodesToRow.decodeWord (hi lo : ByteOperand) : EncodesToRow.Statement (.decodeWord hi lo) :=
  ⟨0x01, rfl, by simp [rowOf]⟩

theorem EncodesToRow.sendWords (ws : List WordOperand) : EncodesToRow.Statement (.sendWords ws) := ⟨0x02, rfl, by simp [rowOf]⟩

theorem EncodesToRow.sendRaw (bs : List ByteOperand) : EncodesToRow.Statement (.sendRaw bs) := ⟨0x03, rfl, by simp [rowOf]⟩

theorem EncodesToRow.awaitAck (n : Int) : EncodesToRow.Statement (.awaitAck n) := ⟨0x04, rfl, by simp [rowOf]⟩

theorem EncodesToRow.reservedHostop (header : Byte) : EncodesToRow.Statement (.reservedHostop header) :=
  ⟨_, rfl, by
    have h : header.toNat &&& (2 ^ 8 - 1) = header.toNat % 2 ^ 8 := Nat.and_two_pow_sub_one_eq_mod _ _
    rw [Nat.mod_eq_of_lt header.isLt] at h
    exact h⟩

theorem EncodesToRow.wordFrame (h l : Byte) : EncodesToRow.Statement (.wordFrame h l) :=
  ⟨_, rfl, Nat.and_zero _⟩

theorem EncodesToRow.ackAccepted : EncodesToRow.Statement .ackAccepted := ⟨0x06, rfl, by simp [rowOf]⟩

theorem EncodesToRow.notAck (a : Byte) : EncodesToRow.Statement (.notAck a) := ⟨_, rfl, Nat.and_zero _⟩

theorem EncodesToRow.putString (codes : List ByteOperand) : EncodesToRow.Statement (.putString codes) :=
  ⟨0x0018, rfl, by simp [rowOf]⟩

end Sys2Proof.Laws
end

