-- ==== Sys2Proof/Laws/Step.lean ====
section
/-! SUPPORT. The one inversion lemma of `step`: if it answers a next state, one of the cases of `StepEffect`
holds. -/

namespace Sys2Proof.Machine

/-- All that one step can do to a state with no recorded fault or refusal. -/
inductive StepEffect (s : State) : State → Prop
  /-- No step is enabled: the block waits, or the run is over. -/
  | same : StepEffect s s
  | refused (r : RefusalReason) (hready : s.HostReady) : StepEffect s (s.recordRefusal r)
  | faulted (f : ModelFault) (hready : s.HostReady) : StepEffect s (s.recordFault f)
  | validation (hready : s.HostReady) : StepEffect s (s.hostError .validation)
  | codec (i : Instr) (r : Result) (hready : s.HostReady) (hi : s.program[s.hpc]? = some i)
      (hfit : ResultFits i r) (hok : r.errorKind? = none) : StepEffect s (s.complete r)
  | beginTx (i : Instr) (o : HostOp) (image : List Byte) (hready : s.HostReady)
      (hi : s.program[s.hpc]? = some i) (hsend : Instr.isSend i = true) (ho : HostOp.image? o = some image)
      (hl : 2 ≤ image.length) (hm : FitsCommand s.params image.length) (ha : s.ackPending = false) :
      StepEffect s (s.beginTx o image)
  | beginAck (n : Nat) (hready : s.HostReady) (hi : s.program[s.hpc]? = some (.awaitAck n))
      (ha : s.ackPending = true) (hn : n ≤ s.params.maxResp) : StepEffect s (s.beginAck n)
  | txMore (b : Byte) (rest : List Byte) (hp : s.phase = .tx) (hq : s.txq = b :: rest) (hrest : rest ≠ []) :
      StepEffect s ({ s with txAnswers := s.txAnswers.tail }.txTaken b rest)
  | txLast (b : Byte) (hp : s.phase = .tx) (hq : s.txq = [b]) :
      StepEffect s ((({ s with txAnswers := s.txAnswers.tail }.txTaken b []).commandSent).complete
        (.sent (s.txSent + 1)))
  | txFail (hp : s.phase = .tx) (hq : s.txq ≠ []) :
      StepEffect s
        ({ s with txAnswers := s.txAnswers.tail }.raise (.ioWrite s.txSent (s.txSent + s.txq.length)))
  | ackFail (hp : s.phase = .ackWait) : StepEffect s (s.rxFail .ack)
  | ackRejected (a : Byte) (hp : s.phase = .ackWait) (ha : a ≠ 0x06) :
      StepEffect s (((s.rxTaken a).ackRetired).raise (.protocol a))
  | ackOnly (hp : s.phase = .ackWait) (hw : s.rxWant = 0) :
      StepEffect s (((s.rxTaken 0x06).ackRetired).complete .noData)
  | ackMore (hp : s.phase = .ackWait) (hw : s.rxWant ≠ 0) :
      StepEffect s { s.rxTaken 0x06 with phase := .payload }
  | payloadFail (hp : s.phase = .payload) : StepEffect s (s.rxFail .payload)
  | payloadMore (b : Byte) (hp : s.phase = .payload) (hw : s.rxBuf.length + 1 ≠ s.rxWant) :
      StepEffect s { s.rxTaken b with rxBuf := s.rxBuf ++ [b] }
  | payloadLast (b : Byte) (hp : s.phase = .payload) (hw : s.rxBuf.length + 1 = s.rxWant) :
      StepEffect s (((s.rxTaken b).ackRetired).complete (.data (s.rxBuf ++ [b])))

/-- The issue of a command as a step effect. -/
theorem StepEffect.ofStartTx {s : State} {i : Instr} {o : HostOp} {image : List Byte} (hready : s.HostReady)
    (hi : s.program[s.hpc]? = some i) (hsend : Instr.isSend i = true) (ho : HostOp.image? o = some image) :
    StepEffect s (s.startTx o image) := by
  obtain ⟨f, h⟩ | ⟨ha, hl, hm, h⟩ := s.startTx_cases o image
  · rw [h]; exact .faulted f hready
  · rw [h]; exact .beginTx i o image hready hi hsend ho hl hm ha

/-- An accepted or refused ISSUE as a step effect. -/
theorem StepEffect.ofIssue {s t body : State} {refusal : Option RefusalReason}
    (h : s.issue refusal body = .next t) (hbody : s.HostReady → refusal = none → StepEffect s body) :
    StepEffect s t := by
  obtain ⟨-, ⟨-, rfl⟩ | ⟨hready, ⟨r, -, rfl⟩ | ⟨hn, rfl⟩⟩⟩ := State.issue_next h
  · exact .same
  · exact .refused r hready
  · exact hbody hready hn

theorem StepEffect.ofAckByte {s : State} {a : Byte} (hp : s.phase = .ackWait) :
    StepEffect s (s.rxAckByte a) := by
  obtain ⟨rfl, hw, h⟩ | ⟨rfl, hw, h⟩ | ⟨ha, h⟩ := s.rxAckByte_cases a
  · rw [h]; exact .ackOnly hp hw
  · rw [h]; exact .ackMore hp hw
  · rw [h]; exact .ackRejected a hp ha

/-- What an instruction at `H.hpc` can do when it is executed. -/
theorem exec_effect {i : Instr} {s t : State} (hi : s.HostReady → s.program[s.hpc]? = some i)
    (h : exec i s = .next t) : StepEffect s t := by
  cases i with
  | encodeWord v => exact .ofIssue h fun hr _ => .codec _ _ hr (hi hr) ⟨_, _, rfl⟩ rfl
  | decodeWord hb lb => exact .ofIssue h fun hr _ => .codec _ _ hr (hi hr) ⟨_, rfl⟩ rfl
  | sendWords ws => exact .ofIssue h fun hr _ => .ofStartTx hr (hi hr) rfl rfl
  | sendRaw bs => exact .ofIssue h fun hr _ => .ofStartTx hr (hi hr) rfl rfl
  | reservedHostop header =>
    have h : s.issue (some .reservedSelector) s = .next t := h
    exact .ofIssue h fun _ hn => nomatch hn
  | wordFrame hb lb =>
    have h : s.issue none (s.startTx (.sendWords [joinBytes hb lb]) [hb, lb]) = .next t := h
    exact .ofIssue h fun hr _ => .ofStartTx hr (hi hr) rfl (by simp [HostOp.image?, wordImage])
  | putString codes =>
    change execPutString codes s = _ at h
    unfold execPutString at h
    split at h
    · exact .ofIssue h fun hr _ => .validation hr
    · exact .ofIssue h fun hr _ => .ofStartTx hr (hi hr) rfl rfl
  | awaitAck n =>
    refine .ofIssue h fun hr hn => ?_
    have hn0 : 0 ≤ n := by
      have := (refusalOf_none.mp hn).1
      simp only [countOutOfRange] at this
      split at this
      · assumption
      · cases this
    obtain ⟨f, h⟩ | ⟨ha, hm, h⟩ := s.startAck_cases n.toNat
    · rw [h]; exact .faulted f hr
    · rw [h]
      exact .beginAck _ hr (by rw [hi hr, Int.toNat_of_nonneg hn0]) ha hm
  | ackAccepted =>
    obtain ⟨-, ⟨hp, rfl⟩ | ⟨-, rfl⟩⟩ := State.ackByte_next h
    · exact .ofAckByte hp
    · exact .same
  | notAck a =>
    obtain ⟨-, ⟨hp, rfl⟩ | ⟨-, rfl⟩⟩ := State.ackByte_next h
    · exact .ofAckByte hp
    · exact .same

theorem State.fetch?_some {s : State} {c : ProgCell} (h : s.fetch? = some c) :
    s.HostReady ∧ s.prog[s.hpc]? = some c := by
  unfold State.fetch? at h
  split at h
  · exact ⟨by assumption, h⟩
  · cases h

/-- All that a step can do. -/
theorem step_effect {s t : State} (h : step s = .next t) : Unstopped s ∧ StepEffect s t := by
  obtain ⟨hf, hr, h⟩ := State.unlessStopped_next h
  refine ⟨⟨hf, hr⟩, ?_⟩
  split at h
  · split at h
    · rename_i c hc
      obtain ⟨-, hc⟩ := State.fetch?_some hc
      exact exec_effect (fun _ => by rw [State.program_getElem?, hc]; rfl) h
    · cases h; exact .same
  · rename_i hp
    split at h
    · obtain ⟨b, rest, hq, ⟨-, hrest, rfl⟩ | ⟨-, rfl, rfl⟩ | ⟨-, rfl⟩⟩ := State.txStep_next h
      · exact .txMore b rest hp hq hrest
      · exact .txLast b hp hq
      · exact .txFail hp (by simp [hq])
    · cases h; exact .same
  · rename_i hp
    split at h
    · exact exec_effect (fun hready => by simp [hready.2.1] at hp) h
    · cases h; exact .ackFail hp
    · cases h; exact .same
  · rename_i hp
    split at h
    · cases h
      unfold State.rxPayloadByte
      split
      · exact .payloadLast _ hp (by assumption)
      · exact .payloadMore _ hp (by assumption)
    · cases h; exact .payloadFail hp
    · cases h; exact .same

/-! ### Runs -/

theorem runFor_zero (s : State) : runFor 0 s = .next s := rfl

theorem runFor_next {k : Nat} {s t : State} (h : step s = .next t) : runFor (k + 1) s = runFor k t := by
  have h' : Sys2Proof.core.step s = .next t := h
  simp only [runFor, Host.Core.run, h']
  rfl

end Sys2Proof.Machine
end

