-- ==== Sys2Proof/Tests/Slice0.lean ====
section
/-! SUPPORT. The model's own tests: words written out from the spec's encodings, the ill-formed terms the checks
refuse, vectors of 95_test_vectors.md (named in each docstring), and for every obligation with hypotheses a witness
that meets them. -/

namespace Sys2Proof.Tests

open Sys2Proof Sys2Proof.Machine

/-! ### Ill-formed terms (R81, R83, R86) -/

theorem test_wf_word_high : Instr.wf (.encodeWord (.lit 65536)) = false := by decide
theorem test_wf_word_negative : Instr.wf (.sendWords [.lit 0x18, .lit (-1)]) = false := by decide
theorem test_wf_byte_high : Instr.wf (.decodeWord (.lit 0x100) (.lit 0)) = false := by decide
theorem test_wf_byte_in_list : Instr.wf (.sendRaw [.lit 0, .lit 0x18, .lit 256]) = false := by decide
theorem test_wf_byte_in_string : Instr.wf (.putString [.lit 0x4F, .lit 300]) = false := by decide
theorem test_wf_count_negative : Instr.wf (.awaitAck (-1)) = false := by decide
theorem test_wf_header_assigned : Instr.wf (.reservedHostop 0x04) = false := by decide
theorem test_wf_notAck_is_ack : Instr.wf (.notAck 0x06) = false := by decide

/-- L2-F, the five references it refuses. -/
theorem test_wf_ref_refused :
    ByteOperand.refWf [.sendWords [], .awaitAck 2] 2 (.ref 1 2) = false ∧
      ByteOperand.refWf [.sendWords [], .awaitAck 0] 2 (.ref 1 0) = false ∧
      ByteOperand.refWf [.sendWords [], .awaitAck 2] 2 (.ref 0 0) = false ∧
      ByteOperand.refWf [.sendWords [], .awaitAck 2, .awaitAck 2] 2 (.ref 2 0) = false ∧
      WordOperand.refWf [.encodeWord (.lit 300)] 1 (.ref 0) = false := by decide

/-- L2-F, the four it accepts. -/
theorem test_wf_ref_accepted :
    ByteOperand.refWf [.sendWords [], .awaitAck 2] 2 (.ref 1 0) = true ∧
      ByteOperand.refWf [.sendWords [], .awaitAck 2] 2 (.ref 1 1) = true ∧
      ByteOperand.refWf [.encodeWord (.lit 300)] 1 (.ref 0 1) = true ∧
      WordOperand.refWf [.decodeWord (.lit 1) (.lit 44)] 1 (.ref 0) = true := by decide

/-- A reference fails in each operation that can hold one. -/
theorem test_refs_refused_per_operation :
    Instr.refsWf [] 0 (.encodeWord (.ref 0)) = false ∧ Instr.refsWf [] 0 (.decodeWord (.lit 1) (.ref 0 0)) = false ∧
      Instr.refsWf [] 0 (.sendWords [.lit 1, .ref 0]) = false ∧
      Instr.refsWf [] 0 (.sendRaw [.lit 0, .lit 0x18, .ref 0 0]) = false ∧
      Instr.refsWf [] 0 (.putString [.ref 0 0]) = false := by decide

/-! ### Decoding: words written out from R82, R83, R71, R73 and R74 -/

/-- A header's operands, for the decode tests. -/
def args : Operands :=
  { v := .lit 300, hi := .lit 1, lo := .lit 44, ws := [.lit 24], bs := [.lit 0, .lit 24], n := 2 }

theorem test_decode_encodeWord : decodeHeader 0b00000000#8 args = .encodeWord (.lit 300) := by decide
theorem test_decode_decodeWord : decodeHeader 0b00000001#8 args = .decodeWord (.lit 1) (.lit 44) := by decide
theorem test_decode_sendWords : decodeHeader 0b00000010#8 args = .sendWords [.lit 24] := by decide
theorem test_decode_sendRaw : decodeHeader 0b00000011#8 args = .sendRaw [.lit 0, .lit 24] := by decide
theorem test_decode_awaitAck : decodeHeader 0b00000100#8 args = .awaitAck 2 := by decide

/-- L2-A, the reserved headers. -/
theorem test_decode_reserved :
    [0x05, 0x06, 0x07, 0x08, 0x0A, 0x80, 0x84, 0xFF].all
      (fun h : Byte => decodeHeader h args == .reservedHostop h) = true := by decide

theorem test_decode_ack : decodeAck 0b00000110#8 = .ackAccepted := by decide

/-- L2-E, the bytes that are not the ACK. -/
theorem test_decode_notAck :
    [0x00, 0x05, 0x07, 0x15, 0x16, 0x46, 0x86, 0xFF].all
      (fun a : Byte => decodeAck a == .notAck a && !isAck a) = true := by decide

/-- R71: 300 is `00000001 00101100` in stream order. -/
theorem test_decode_wordFrame : decodeTableWord 16 0b0000000100101100 = some (.wordFrame 0x01 0x2C) := by decide

/-- R92: the bytes of the string "OK". -/
theorem test_decode_putString :
    decodeCell (.raw [.lit 0x00, .lit 0x18, .lit 0x4F, .lit 0x4B, .lit 0x00]) =
      .putString [.lit 0x4F, .lit 0x4B] := by decide

/-- R73: with another opcode pair, or with no terminator, a raw-byte command is a SEND_RAW. -/
theorem test_decode_raw :
    decodeCell (.raw [.lit 0x00, .lit 0x19, .lit 0x00]) = .sendRaw [.lit 0x00, .lit 0x19, .lit 0x00] ∧
      decodeCell (.raw [.lit 0x00, .lit 0x18, .lit 0x4F]) = .sendRaw [.lit 0x00, .lit 0x18, .lit 0x4F] := by
  decide

theorem test_decode_other_widths : decodeTableWord 0 0 = none ∧ decodeTableWord 32 0 = none := by decide

/-- The encoder's words. -/
theorem test_encode :
    encode (.awaitAck 2) = .cell (.hostOp 0x04 { n := 2 }) ∧
      encode (.putString [.lit 0x4F]) = .cell (.raw [.lit 0x00, .lit 0x18, .lit 0x4F, .lit 0x00]) ∧
      encode .ackAccepted = .rxByte 0x06 ∧ encode (.wordFrame 0x01 0x2C) = .cell (.frame 0x01 0x2C) := by decide

/-! ### Steps -/

/-- After reset, with the program `prog` loaded (R32). -/
def running (prog : List ProgCell) : State := { State.reset with prog := prog, status := .running }

/-- A command of the program `prog` has just been sent whole: its acknowledgement is outstanding. -/
def sent (prog : List ProgCell) : State :=
  { running prog with ackPending := true, sendsDone := 1, hpc := 1, results := [.sent 2] }

/-- The program of L2-C and L2-D: a command of two Words, and its acknowledgement with two bytes. -/
def roundTrip : List ProgCell :=
  [.hostOp 0x02 { ws := [.lit 0x1234, .lit 0xABCD] }, .hostOp 0x04 { n := 2 }]

/-- One byte of the command of `roundTrip` is sent. -/
def sending : State :=
  { running roundTrip with
    phase := .tx, op := some (.sendWords [0x1234, 0xABCD]), txq := [0x34, 0xAB, 0xCD], txSent := 1
    txLog := [0x12] }

/-- The acknowledgement of `roundTrip` is awaited. -/
def awaiting : State :=
  { sent roundTrip with phase := .ackWait, op := some (.awaitAck 2), rxWant := 2 }

/-- The acknowledgement of `roundTrip` and one payload byte are read. -/
def reading : State := { awaiting with phase := .payload, rxBuf := [0x00], rxLog := [0x06, 0x00] }

/-- The state after an outcome, if it is a next state. -/
def after : Step → Option State
  | .next s => some s
  | .fault _ => none
  | .refused _ => none

/-- L2-B. -/
theorem test_encodeWord :
    (after (exec (.encodeWord (.lit 300)) (running [.hostOp 0x00 { v := .lit 300 }]))).map (·.result) =
      some (some (.pair 0x01 0x2C)) := by decide

/-- L2-B: refused, not `Pair(0x00, 0x00)`. -/
theorem test_encodeWord_refused :
    (after (exec (.encodeWord (.lit 65536)) (running roundTrip))).map (fun t => (t.result, t.refused, t.hpc)) =
      some (none, some (.encodingError [65536]), 0) := by decide

/-- L2-B. -/
theorem test_decodeWord :
    (after (exec (.decodeWord (.lit 0x2C) (.lit 0x01)) (running roundTrip))).map (·.result) =
      some (some (.val 11265)) := by decide

/-- L2-F: `@0.1` of an ENCODE_WORD 300 is 0x2C. -/
theorem test_decodeWord_ref :
    (after (exec (.decodeWord (.lit 0) (.ref 0 1))
      { running [.hostOp 0x00 { v := .lit 300 }, .hostOp 0x01 { lo := .ref 0 1 }] with
        hpc := 1, results := [.pair 0x01 0x2C] })).map (fun t => (t.result, t.status)) =
      some (some (.val 0x2C), .done) := by decide

/-- L2-C: the issue of a command, high byte first. -/
theorem test_sendWords :
    (after (step (running roundTrip))).map (fun t => (t.phase, t.txq, t.txSent)) =
      some (.tx, [0x12, 0x34, 0xAB, 0xCD], 0) := by decide

/-- L2-G: SEQ_SEND comes before MALFORMED_COMMAND. -/
theorem test_sendWords_order :
    (after (exec (.sendWords []) { running roundTrip with ackPending := true })).map (·.fault) =
      some (some .seqSend) := by decide

/-- L2-C: odd length is legal. -/
theorem test_sendRaw :
    (after (exec (.sendRaw [.lit 0x00, .lit 0x18, .lit 0x06, .lit 0x00, .lit 0x00]) (running roundTrip))).map
      (·.txq) = some [0x00, 0x18, 0x06, 0x00, 0x00] := by decide

/-- L2-C. -/
theorem test_sendRaw_short :
    (after (exec (.sendRaw [.lit 0x00]) (running roundTrip))).map (fun t => (t.fault, t.txLog)) =
      some (some .malformedCommand, []) := by decide

/-- R123: the bound itself is legal, one byte more is not. -/
theorem test_command_length :
    imageTooLong { maxResp := 2, maxCmdBytes := some 1206 } 1206 = false ∧
      imageTooLong { maxResp := 2, maxCmdBytes := some 1206 } 1208 = true := by decide

/-- L2-C: `fail` after the first byte. -/
theorem test_txStep_fail :
    (after (step { sending with txAnswers := [.fail] })).map
        (fun t => (t.result, t.txLog, t.ackPending, t.status)) =
      some (some (.err (.ioWrite 1 4)), [0x12], false, .halted 0 .ioError) := by decide

/-- L2-C: the last byte completes with `Sent(4)`. -/
theorem test_txStep_last :
    (after (step { sending with txq := [0xCD], txSent := 3, txAnswers := [.ok] })).map
        (fun t => (t.result, t.ackPending, t.hpc, t.phase)) =
      some (some (.sent 4), true, 1, .idle) := by decide

/-- L2-D: `P_MAX_RESP` is legal, one more is not. -/
theorem test_awaitAck :
    (after (exec (.awaitAck 2) (sent roundTrip))).map (fun t => (t.phase, t.rxWant)) = some (.ackWait, 2) ∧
      (after (exec (.awaitAck 3) (sent roundTrip))).map (fun t => (t.fault, t.ackPending)) =
        some (some .responseTooLong, true) := by decide

/-- L2-D: SEQ_AWAIT is checked first. -/
theorem test_awaitAck_order :
    (after (exec (.awaitAck 3) (running roundTrip))).map (·.fault) = some (some .seqAwait) := by decide

/-- L2-D: `NoData`, never `Data([])`. -/
theorem test_ackAccepted :
    (after (step { awaiting with rxWant := 0, rxAnswers := [.byte 0x06] })).map
        (fun t => (t.result, t.ackPending, t.rxLog, t.status)) =
      some (some .noData, false, [0x06], .done) := by decide

/-- L2-D: bit 7 is compared, and the rest stays in the channel. -/
theorem test_notAck :
    (after (step { awaiting with rxAnswers := [.byte 0x86, .byte 0x00] })).map
        (fun t => (t.result, t.rxLog, t.rxAnswers, t.errProtocol)) =
      some (some (.err (.protocol 0x86)), [0x86], [.byte 0x00], true) := by decide

/-- L2-D: a payload byte 0x06 is data. -/
theorem test_payload :
    (after (step { reading with rxAnswers := [.byte 0x06] })).map (fun t => (t.result, t.ackPending, t.hpc)) =
      some (some (.data [0x00, 0x06]), false, 2) := by decide

/-- L2-D: the bytes read before a failure are discarded. -/
theorem test_payload_fail :
    (after (step { reading with rxAnswers := [.fail] })).map (fun t => (t.result, t.rxBuf, t.rxLog)) =
      some (some (.err (.ioRead .payload 1 2)), [], [0x06, 0x00]) := by decide

theorem test_reservedHostop :
    (after (step (running [.hostOp 0x08 {}]))).map (fun t => (t.refused, t.hpc, t.status)) =
      some (some .reservedSelector, 0, .running) := by decide

theorem test_wordFrame :
    (after (step (running [.frame 0x01 0x2C]))).map (fun t => (t.txq, t.op)) =
      some ([0x01, 0x2C], some (.sendWords [300])) := by decide

/-- L1-5: the bytes of `put_string("OK")`. -/
theorem test_putString :
    (after (exec (.putString [.lit 0x4F, .lit 0x4B]) (running roundTrip))).map (·.txq) =
      some [0x00, 0x18, 0x4F, 0x4B, 0x00] := by decide

/-- L1-6: 512 characters fail the pre-check. -/
theorem test_putString_length :
    (after (exec (.putString (List.replicate 512 (.lit 0x41))) (running roundTrip))).map
      (fun t => (t.status, t.hostReport, t.result, t.txLog)) = some (.done, some (0, .validation), none, []) := by
  show (after (execPutString _ _)).map _ = _
  rw [execPutString, if_pos (by rw [List.length_replicate]; decide)]
  decide

/-- L2-B. -/
theorem test_wordsOf :
    (wordsOf [0x01, 0xE0, 0x00, 0x02]).toOption = some [480, 2] ∧ (wordsOf [0x01, 0xE0, 0x00]).toOption = none := by
  decide

/-- The program of a table word is what the next step runs, in the row's own phase. -/
theorem test_withFetchWord :
    (after (step (State.reset.withFetchWord 16 0x012C))).map (·.txq) = some [0x01, 0x2C] ∧
      (after (step (State.reset.withFetchWord 8 0x06))).map (·.result) = some (some .noData) ∧
      (after (step (State.reset.withFetchWord 8 0x15))).map (·.result) = some (some (.err (.protocol 0x15))) ∧
      (after (step (State.reset.withFetchWord 8 0x00))).map (·.result) = some (some (.pair 0 0)) := by decide

/-! ### Façade and assembler -/

/-- The example catalogue of programs P3, P4 and P7. -/
def catalogue : Catalogue where
  opcPoly := fun _ => 0x0A0A
  opcShape := fun _ _ => 0x0B0B
  opcContrast := 0x0C0C
  opcOrientation := 0x0D0D
  respPoly := 0
  respShape := fun _ => 0
  paramsShape := fun _ => ["x", "y"]
  queryX := [0x1000]
  queryY := [0x1001]
  contrastInit := 0
  code := fun c => BitVec.ofNat 8 c.toNat

/-- Program P4. -/
theorem test_poly :
    poly catalogue [10, 20, 300] [5, 6, 7] 0xF800 .openLine =
      .ok [.sendWords [.lit 0x0A0A, .lit 3, .lit 10, .lit 20, .lit 300, .lit 5, .lit 6, .lit 7, .lit 0xF800],
        .awaitAck 0] := by rfl

/-- Program P1, its post-check, and the failing one of L1-5. -/
theorem test_facade_putString :
    putString catalogue 0 ['O', 'K'] =
        .ok [.sendRaw [.lit 0x00, .lit 0x18, .lit 0x4F, .lit 0x4B, .lit 0x00], .awaitAck 2,
          .decodeWord (.ref 1 0) (.ref 1 1)] ∧
      putStringCheck ['O', 'K'] 2 = .ok () ∧ putStringCheck ['O', 'K'] 3 = .error (.consistency 2 3) :=
  ⟨rfl, rfl, rfl⟩

/-- Program P7: set 200, off, on. -/
theorem test_contrast :
    contrastOff catalogue 3 = [.sendWords [.lit 0x0C0C, .lit 0], .awaitAck 2, .decodeWord (.ref 4 0) (.ref 4 1)] ∧
      contrastOn catalogue 6 (((DisplayState.initial catalogue).afterSet 200).afterSet 0) =
        [.sendWords [.lit 0x0C0C, .lit 200], .awaitAck 2, .decodeWord (.ref 7 0) (.ref 7 1)] := by decide

/-- Program P3. -/
theorem test_displaySize :
    displaySize catalogue 0 =
        [.sendWords [.lit 0x1000], .awaitAck 2, .decodeWord (.ref 1 0) (.ref 1 1),
          .sendWords [.lit 0x1001], .awaitAck 2, .decodeWord (.ref 4 0) (.ref 4 1)] ∧
      displaySizeResult [.sent 2, .data [0x01, 0xE0], .val 480, .sent 2, .data [0x01, 0x10], .val 272] 0 =
        some (480, 272) := by decide

/-- R84: a program's text, with a hex number, a reference, a comment, and the default of AWAIT_ACK. -/
theorem test_assemble :
    assemble ["SEND_RAW    [0x00, 0x18, 0x4F]  ; text".toList, "AWAIT_ACK".toList, "AWAIT_ACK 2".toList,
        "DECODE_WORD @2.0, @2.1".toList, "ENCODE_WORD @3".toList, "SEND_WORDS [300]".toList] =
      some [.sendRaw [.lit 0, .lit 24, .lit 79], .awaitAck 0, .awaitAck 2, .decodeWord (.ref 2 0) (.ref 2 1),
        .encodeWord (.ref 3), .sendWords [.lit 300]] := by decide

theorem test_assemble_refused :
    assembleLine "AWAIT_ACK @1".toList = none ∧ assembleLine "SEND_RAW 1, 2".toList = none ∧
      assembleLine "RESET".toList = none := by decide

/-! ### Witnesses: for each obligation with hypotheses, operands and a state that meet them, clause by clause -/

/-- A program that refers to results, at its last operation. -/
def referring : State :=
  { running [.hostOp 0x01 { hi := .lit 1, lo := .lit 44 }, .hostOp 0x00 { v := .ref 0 },
      .hostOp 0x03 { bs := [.ref 1 0, .ref 1 1] }] with
    hpc := 2, results := [.val 300, .pair 0x01 0x2C] }

theorem wordGives_lit {s : State} {x : Int} {w : Word} (h : 0 ≤ x ∧ x ≤ 65535 ∧ (w.toNat : Int) = x) :
    WordGives s (.lit x) w := h

theorem byteGives_lit {s : State} {x : Int} {b : Byte} (h : 0 ≤ x ∧ x ≤ 255 ∧ (b.toNat : Int) = x) :
    ByteGives s (.lit x) b := h

theorem referring_word : WordGives referring (.ref 0) 300 :=
  ⟨by decide, ⟨.lit 1, .lit 44, rfl⟩, rfl⟩

theorem referring_byte : ByteGives referring (.ref 1 1) 0x2C :=
  ⟨by decide, .inr ⟨.ref 0, 0x01, 0x2C, rfl, rfl, .inr ⟨rfl, rfl⟩⟩⟩

/-- One header for each clause, at the ends of the two reserved ranges. -/
theorem test_witness_HeaderSelectsOperation :
    (0x08 : Byte).extractLsb' 3 5 ≠ 0 ∧ (0xFF : Byte).extractLsb' 3 5 ≠ 0 ∧
      ((0x00 : Byte).extractLsb' 3 5 = 0 ∧ (0x00 : Byte).extractLsb' 0 3 = 0) ∧
      ((0x01 : Byte).extractLsb' 3 5 = 0 ∧ (0x01 : Byte).extractLsb' 0 3 = 1) ∧
      ((0x02 : Byte).extractLsb' 3 5 = 0 ∧ (0x02 : Byte).extractLsb' 0 3 = 2) ∧
      ((0x03 : Byte).extractLsb' 3 5 = 0 ∧ (0x03 : Byte).extractLsb' 0 3 = 3) ∧
      ((0x04 : Byte).extractLsb' 3 5 = 0 ∧ (0x04 : Byte).extractLsb' 0 3 = 4) ∧
      ((0x05 : Byte).extractLsb' 3 5 = 0 ∧ ((0x05 : Byte).extractLsb' 0 3).toNat ≥ 5) ∧
      ((0x07 : Byte).extractLsb' 3 5 = 0 ∧ ((0x07 : Byte).extractLsb' 0 3).toNat ≥ 5) := by decide

/-- A well-formed instruction of each row, at the ends of its ranges. -/
theorem test_witness_DecodeInvertsEncode :
    [Instr.encodeWord (.lit 65535), .decodeWord (.lit 0) (.lit 255), .sendWords [.lit 0, .ref 3],
      .sendRaw [.lit 255, .ref 1 0], .awaitAck 0, .reservedHostop 0x05, .wordFrame 0 0xFF, .ackAccepted,
      .notAck 0x07, .putString [.lit 0, .lit 255]].all Instr.wf = true := by decide

theorem test_witness_EncodeWordCompletes :
    (running roundTrip).HostReady ∧ WordGives (running roundTrip) (.lit 65535) 0xFFFF ∧
      WordGives (running roundTrip) (.lit 0) 0 ∧ referring.HostReady ∧ WordGives referring (.ref 0) 300 :=
  ⟨by decide, wordGives_lit (by decide), wordGives_lit (by decide), by decide, referring_word⟩

theorem test_witness_DecodeWordCompletes :
    referring.HostReady ∧ ByteGives referring (.lit 255) 0xFF ∧ ByteGives referring (.ref 1 1) 0x2C :=
  ⟨by decide, byteGives_lit (by decide), referring_byte⟩

theorem test_witness_CodecRoundTrip :
    ((running roundTrip).HostReady ∧
      exec (.encodeWord (.lit 65535)) (running roundTrip) =
        .next ((running roundTrip).complete (.pair 0xFF 0xFF)) ∧
      ((running roundTrip).complete (.pair 0xFF 0xFF)).result = some (.pair 0xFF 0xFF)) ∧
    exec (.decodeWord (litByte 0xFF) (litByte 0xFF)) (running roundTrip) =
      .next ((running roundTrip).complete (.val 0xFFFF)) ∧
    ((running roundTrip).complete (.val 0xFFFF)).result = some (.val 0xFFFF) ∧
    (sent roundTrip).HostReady :=
  ⟨⟨by decide, rfl, rfl⟩, rfl, rfl, by decide⟩

theorem test_witness_WordsOfReassembles :
    ([] : List Byte).length % 2 = 0 ∧ ([0x01, 0xE0] : List Byte).length % 2 = 0 ∧
      ([0x01, 0xE0] : List Byte)[2 * 0]? = some 0x01 ∧ ([0x01, 0xE0] : List Byte)[2 * 0 + 1]? = some 0xE0 ∧
      ([0x01] : List Byte).length % 2 = 1 := by decide

theorem test_witness_WordImageLayout : ([0x1234, 0xABCD] : List Word)[1]? = some 0xABCD := by decide

/-! The invariants, in each phase. -/

theorem running_hostInv : HostInv (running roundTrip) where
  results_fit := by intro k hk; exact absurd hk (Nat.not_lt_zero k)
  results_length := .inl rfl
  hpc_le := by decide
  busy := by intro h; exact absurd rfl h
  tx_op := by intro h; exact absurd h (by decide)
  rx_op := by intro h; exact absurd h (by decide)
  done_end := by intro h; exact absurd h (by decide)
  report_done := by intro _ _ h; exact nomatch h
  halt_holds := by intro _ _ h; exact nomatch h
  running_before := by decide
  stopped := by intro _; rfl

theorem sending_blockInv : BlockInv sending where
  idle_iff := by decide
  txq_empty := by intro h; exact absurd rfl h
  rx_empty := by decide
  ackWait_buf := by decide
  tx_ack := by decide
  rx_ack := by decide
  txq_nonempty := by decide
  tx_image := fun _ => ⟨.sendWords [0x1234, 0xABCD], [0x12, 0x34, 0xAB, 0xCD], rfl, rfl, by decide, rfl⟩
  want_bound := by decide
  payload_short := by decide

theorem awaiting_blockInv : BlockInv awaiting where
  idle_iff := by decide
  txq_empty := by decide
  rx_empty := by decide
  ackWait_buf := by decide
  tx_ack := by decide
  rx_ack := by decide
  txq_nonempty := by decide
  tx_image := by intro h; exact absurd h (by decide)
  want_bound := by decide
  payload_short := by decide

theorem awaiting_hostInv : HostInv awaiting where
  results_fit := by
    intro k hk
    match k, hk with
    | 0, _ => exact ⟨.sendWords [.lit 0x1234, .lit 0xABCD], .sent 2, rfl, rfl, 2, rfl⟩
  results_length := .inl rfl
  hpc_le := by decide
  busy := by decide
  tx_op := by intro h; exact absurd h (by decide)
  rx_op := fun _ => ⟨2, rfl, by decide⟩
  done_end := by intro h; exact absurd h (by decide)
  report_done := by intro _ _ h; exact nomatch h
  halt_holds := by intro _ _ h; exact nomatch h
  running_before := by decide
  stopped := by intro _; rfl

/-- Each operation that can hold a value out of range, at the ends of the ranges. -/
theorem test_witness_OutOfRangeOperandIsRefused :
    (running roundTrip).HostReady ∧ HostInv (running roundTrip) ∧
      [Instr.encodeWord (.lit 65536), .decodeWord (.lit (-1)) (.lit 0), .sendWords [.lit 70000],
        .sendRaw [.lit 0x00, .lit 0x18, .lit 256], .awaitAck (-1), .putString [.lit 256]].all
        (fun i => Instr.isChecked i && !i.wf && i.refsWf (running roundTrip).program (running roundTrip).hpc) =
          true :=
  ⟨by decide, running_hostInv, by decide⟩

theorem test_witness_BadReferenceIsRefused :
    (running roundTrip).HostReady ∧
      [Instr.encodeWord (.ref 0), .decodeWord (.ref 0 0) (.lit 0), .sendWords [.lit 1, .ref 0],
        .sendRaw [.ref 0 0], .putString [.ref 0 0]].all
        (fun i => Instr.isChecked i && i.wf && !i.refsWf (running roundTrip).program (running roundTrip).hpc) =
          true := by decide

theorem test_witness_BothChecksFailingIsRefused :
    (running roundTrip).HostReady ∧
      [Instr.decodeWord (.ref 0 0) (.lit 256), .sendWords [.lit (-1), .ref 0],
        .sendRaw [.ref 0 0, .lit 256], .putString [.lit 256, .ref 0 0]].all
        (fun i => Instr.isChecked i && !i.wf && !i.refsWf (running roundTrip).program (running roundTrip).hpc) =
          true := by decide

theorem test_witness_ReservedHeaderIsRefused : (running [.hostOp 0x05 {}]).HostReady := by decide

theorem test_witness_WellFormedOperandsHaveValues :
    HostInv awaiting ∧ WordOperand.inRange (.lit 65535) = true ∧
      WordOperand.refWf awaiting.program awaiting.hpc (.lit 65535) = true ∧
      ByteOperand.inRange (.lit 255) = true ∧
      ByteOperand.refWf awaiting.program awaiting.hpc (.lit 255) = true :=
  ⟨awaiting_hostInv, by decide, by decide, by decide, by decide⟩

theorem test_witness_SendWordsStarts :
    (running roundTrip).HostReady ∧ WordsGive (running roundTrip) [.lit 65535] [0xFFFF] ∧
      (running roundTrip).ackPending = false ∧ ([0xFFFF] : List Word) ≠ [] ∧
      FitsCommand (running roundTrip).params (2 * ([0xFFFF] : List Word).length) :=
  ⟨by decide, .cons (wordGives_lit (by decide)) .nil, rfl, by decide, fun _ h => nomatch h⟩

/-- The shortest legal command. -/
theorem test_witness_SendRawStarts :
    referring.HostReady ∧ BytesGive referring [.lit 0, .ref 1 1] [0x00, 0x2C] ∧
      referring.ackPending = false ∧ 2 ≤ ([0x00, 0x2C] : List Byte).length ∧
      FitsCommand referring.params ([0x00, 0x2C] : List Byte).length :=
  ⟨by decide, .cons (byteGives_lit (by decide)) (.cons referring_byte .nil), rfl, by decide,
    fun _ h => nomatch h⟩

theorem test_witness_WordFrameStarts :
    (running [.frame 0x00 0x18]).HostReady ∧ (running [.frame 0x00 0x18]).ackPending = false ∧
      FitsCommand (running [.frame 0x00 0x18]).params 2 :=
  ⟨by decide, rfl, fun _ h => nomatch h⟩

/-- The empty string and a string of one character. -/
theorem test_witness_PutStringStarts :
    (running roundTrip).HostReady ∧ BytesGive (running roundTrip) [] [] ∧
      BytesGive (running roundTrip) [.lit 0x4F] [0x4F] ∧ (running roundTrip).ackPending = false ∧
      ([.lit 0x4F] : List ByteOperand).length ≤ 511 ∧
      FitsCommand (running roundTrip).params (([0x4F] : List Byte).length + 3) :=
  ⟨by decide, .nil, .cons (byteGives_lit (by decide)) .nil, rfl, by decide, fun _ h => nomatch h⟩

theorem test_witness_LongStringSendsNothing :
    (running roundTrip).HostReady ∧ 511 < (List.replicate 512 (ByteOperand.lit 0x41)).length :=
  ⟨by decide, by rw [List.length_replicate]; decide⟩

/-- The program of `running`, with the least bound R9 allows. -/
def bounded : State := { running roundTrip with params := { maxResp := 2, maxCmdBytes := some 1206 } }

theorem not_fits (len : Nat) (h : 1206 < len) : ¬ FitsCommand bounded.params len :=
  fun hf => absurd (hf 1206 rfl) (by omega)

/-- SEQ_SEND for an empty command, MALFORMED_COMMAND for one byte, COMMAND_TOO_LONG for 1207. -/
theorem test_witness_SendFaultsInOrder :
    ((sent roundTrip).HostReady ∧ WordsGive (sent roundTrip) [] [] ∧ (sent roundTrip).ackPending = true) ∧
      ((running roundTrip).HostReady ∧ BytesGive (running roundTrip) [.lit 0] [0x00] ∧
        (running roundTrip).ackPending = false ∧ ([0x00] : List Byte).length < 2) ∧
      (bounded.HostReady ∧ BytesGive bounded (List.replicate 1207 (.lit 0)) (List.replicate 1207 0x00) ∧
        bounded.ackPending = false ∧ 2 ≤ (List.replicate 1207 (0x00 : Byte)).length ∧
        ¬ FitsCommand bounded.params (List.replicate 1207 (0x00 : Byte)).length) :=
  ⟨⟨by decide, .nil, rfl⟩, ⟨by decide, .cons (byteGives_lit (by decide)) .nil, rfl, by decide⟩,
    by decide, bytesGive_replicate 1207, rfl, by rw [List.length_replicate]; decide,
    not_fits _ (by rw [List.length_replicate]; decide)⟩
where
  bytesGive_replicate : ∀ k, BytesGive bounded (List.replicate k (.lit 0)) (List.replicate k 0x00)
    | 0 => .nil
    | k + 1 => .cons (byteGives_lit (by decide)) (bytesGive_replicate k)

/-- A Word frame and a string while an acknowledgement is outstanding, and each where it passes a bound of one
byte, which no `P_MAX_CMD_BYTES` of R9 is: a state no run reaches. -/
theorem test_witness_FrameAndStringFaultsInOrder :
    ((sent roundTrip).HostReady ∧ BytesGive (sent roundTrip) [.lit 0x4F] [0x4F] ∧
        ([.lit 0x4F] : List ByteOperand).length ≤ 511 ∧ (sent roundTrip).ackPending = true) ∧
      ∃ s : State, s.HostReady ∧ s.ackPending = false ∧
        ¬ FitsCommand s.params ([0x01, 0x2C] : List Byte).length ∧ BytesGive s [] [] ∧
        ¬ FitsCommand s.params ([0x00, 0x18] ++ ([] : List Byte) ++ [0x00]).length :=
  ⟨⟨by decide, .cons (byteGives_lit (by decide)) .nil, by decide, rfl⟩,
    { running roundTrip with params := { maxResp := 2, maxCmdBytes := some 1 } }, by decide, rfl,
    fun hf => absurd (hf 1 rfl) (by decide), .nil, fun hf => absurd (hf 1 rfl) (by decide)⟩

/-- Each answer, with more of the command left and at its last byte. -/
theorem test_witness_TxStepByAnswer :
    (sending.phase = .tx ∧ Unstopped sending ∧ sending.txq = 0x34 :: [0xAB, 0xCD] ∧
        ([0xAB, 0xCD] : List Byte) ≠ []) ∧
      ({ sending with txq := [0xCD], txAnswers := [.ok] } : State).txq = 0xCD :: [] ∧
      ({ sending with txq := [0xCD], txAnswers := [.ok] } : State).txAnswers = .ok :: [] ∧
      ({ sending with txAnswers := [.fail] } : State).txAnswers = .fail :: [] :=
  ⟨⟨rfl, ⟨rfl, rfl⟩, rfl, by decide⟩, rfl, rfl, rfl⟩

theorem sending_blockInv_of (answers : List TxAnswer) : BlockInv { sending with txAnswers := answers } :=
  { sending_blockInv with }

theorem test_witness_TxFailEndsCommand :
    BlockInv { sending with txAnswers := [.fail, .ok] } ∧
      ({ sending with txAnswers := [.fail, .ok] } : State).phase = .tx ∧
      Unstopped { sending with txAnswers := [.fail, .ok] } ∧
      ({ sending with txAnswers := [.fail, .ok] } : State).txAnswers = .fail :: [.ok] :=
  ⟨sending_blockInv_of _, rfl, ⟨rfl, rfl⟩, rfl⟩

/-- Both bytes of a command taken; and the failure at the first byte and at the last. -/
theorem test_witness_CommandRunSummary :
    ∀ answers ∈ [List.replicate 2 TxAnswer.ok ++ [], List.replicate 0 .ok ++ .fail :: [],
        List.replicate 1 .ok ++ .fail :: []],
      ∃ s : State, s.txAnswers = answers ∧ s.ackPending = false ∧ Unstopped s ∧
        2 ≤ ([0x01, 0x2C] : List Byte).length ∧
        step s = .next (s.beginTx (.sendWords [joinBytes 0x01 0x2C]) [0x01, 0x2C]) :=
  fun answers _ =>
    ⟨{ running [.frame 0x01 0x2C] with txAnswers := answers }, rfl, rfl, ⟨rfl, rfl⟩, by decide, rfl⟩

/-- `P_MAX_RESP` itself. -/
theorem test_witness_AwaitAckStarts :
    (sent roundTrip).HostReady ∧ (sent roundTrip).ackPending = true ∧ 2 ≤ (sent roundTrip).params.maxResp := by
  decide

theorem test_witness_AwaitAckFaultsInOrder :
    ((running roundTrip).HostReady ∧ (running roundTrip).ackPending = false) ∧
      (sent roundTrip).HostReady ∧ (sent roundTrip).ackPending = true ∧ (sent roundTrip).params.maxResp < 3 := by
  decide

theorem test_witness_AckAcceptedCompletes :
    (awaiting.phase = .ackWait ∧ Unstopped awaiting ∧ awaiting.rxWant ≠ 0) ∧
      ({ awaiting with rxWant := 0 } : State).phase = .ackWait ∧ Unstopped { awaiting with rxWant := 0 } ∧
      ({ awaiting with rxWant := 0 } : State).rxWant = 0 :=
  ⟨⟨rfl, ⟨rfl, rfl⟩, by decide⟩, rfl, ⟨rfl, rfl⟩, rfl⟩

theorem test_witness_NotAckCompletes :
    awaiting.phase = .ackWait ∧ Unstopped awaiting ∧ (0x07 : Byte) ≠ 0x06 ∧ (0x86 : Byte) ≠ 0x06 :=
  ⟨rfl, ⟨rfl, rfl⟩, by decide, by decide⟩

/-- Each answer, with a payload wanted and with none. -/
theorem test_witness_RxAckStepByAnswer :
    ∀ (a : RxAnswer) (want : Nat), ∃ s : State, s.phase = .ackWait ∧ Unstopped s ∧ s.rxAnswers = a :: [] ∧
      s.rxWant = want :=
  fun a want => ⟨{ awaiting with rxAnswers := [a], rxWant := want }, rfl, ⟨rfl, rfl⟩, rfl, rfl⟩

/-- Each answer, at the last payload byte and before it. -/
theorem test_witness_RxPayloadStepByAnswer :
    ∀ a : RxAnswer,
      (∃ s : State, s.phase = .payload ∧ Unstopped s ∧ s.rxAnswers = a :: [] ∧ s.rxBuf.length + 1 = s.rxWant) ∧
        ∃ s : State, s.phase = .payload ∧ Unstopped s ∧ s.rxAnswers = a :: [] ∧
          s.rxBuf.length + 1 ≠ s.rxWant :=
  fun a =>
    ⟨⟨{ reading with rxAnswers := [a] }, rfl, ⟨rfl, rfl⟩, rfl, rfl⟩,
      { reading with rxAnswers := [a], rxBuf := [] }, rfl, ⟨rfl, rfl⟩, rfl, by show 0 + 1 ≠ 2; decide⟩

/-- A channel that fails at once, rejects, and fails after one payload byte or before any, with `n` = 2; and one
that accepts, with `n` = 0, 1 and 2. -/
theorem test_witness_AwaitAckRunSummary :
    (∀ answers ∈ [[RxAnswer.fail], [.byte 0x15, .byte 0x00],
          RxAnswer.byte 0x06 :: (([0x00, 0x02] : List Byte).map .byte ++ []),
          RxAnswer.byte 0x06 :: (([] : List Byte).map .byte ++ .fail :: []),
          RxAnswer.byte 0x06 :: (([0x00] : List Byte).map .byte ++ .fail :: [])],
        ∃ s : State, s.rxAnswers = answers ∧ Unstopped s ∧ step s = .next (s.beginAck 2)) ∧
      (∃ s : State, s.rxAnswers = [.byte 0x06] ∧ Unstopped s ∧ step s = .next (s.beginAck 0)) ∧
      ∃ s : State, s.rxAnswers = RxAnswer.byte 0x06 :: (([0x06] : List Byte).map .byte ++ []) ∧ Unstopped s ∧
        step s = .next (s.beginAck 1) :=
  ⟨fun answers _ => ⟨{ sent roundTrip with rxAnswers := answers }, rfl, ⟨rfl, rfl⟩, rfl⟩,
    ⟨{ sent [.hostOp 0x02 {}, .hostOp 0x04 {}] with rxAnswers := [.byte 0x06] }, rfl, ⟨rfl, rfl⟩, rfl⟩,
    { sent [.hostOp 0x02 {}, .hostOp 0x04 { n := 1 }] with rxAnswers := [.byte 0x06, .byte 0x06] }, rfl,
    ⟨rfl, rfl⟩, rfl⟩

theorem test_witness_AwaitAckEndsClean :
    ∃ t, step { reading with rxAnswers := [.byte 0x02] } = .next t ∧ t.phase = .idle := ⟨_, rfl, rfl⟩

theorem test_witness_CompleteWrites :
    Result.err (.protocol 0x15) = .err (.protocol 0x15) ∧ ∀ e, Result.noData ≠ .err e :=
  ⟨rfl, fun _ h => nomatch h⟩

theorem test_witness_StepRunsDecodedInstruction :
    ((running roundTrip).HostReady ∧
        (running roundTrip).prog[(running roundTrip).hpc]? =
          some (.hostOp 0x02 { ws := [.lit 0x1234, .lit 0xABCD] })) ∧
      ({ awaiting with rxAnswers := [.byte 0x15] } : State).phase = .ackWait ∧
      Unstopped { awaiting with rxAnswers := [.byte 0x15] } ∧
      ({ awaiting with rxAnswers := [.byte 0x15] } : State).rxAnswers = .byte 0x15 :: [] :=
  ⟨⟨by decide, rfl⟩, rfl, ⟨rfl, rfl⟩, rfl⟩

theorem faulted_hostInv : HostInv { running roundTrip with fault := some .seqAwait } :=
  { running_hostInv with stopped := fun _ => rfl }

theorem test_witness_StoppedMachineHasNoStep :
    ({ running roundTrip with fault := some .seqAwait } : State).fault = some .seqAwait ∧
      (({ running roundTrip with refused := some .badRef } : State).fault = none ∧
        ({ running roundTrip with refused := some .badRef } : State).refused = some .badRef) ∧
      HostInv { running roundTrip with fault := some .seqAwait } ∧
      ¬ Unstopped { running roundTrip with fault := some .seqAwait } :=
  ⟨rfl, ⟨rfl, rfl⟩, faulted_hostInv, fun h => nomatch h.1⟩

theorem test_witness_BusyBlockIssuesNothing :
    Unstopped sending ∧ sending.phase ≠ .idle ∧ Instr.isIssued (.encodeWord (.lit 0)) = true :=
  ⟨⟨rfl, rfl⟩, by decide, rfl⟩

theorem test_witness_WaitingAndFinalStatesStay :
    (Unstopped sending ∧ Waiting sending) ∧ (Unstopped awaiting ∧ Waiting awaiting) ∧
      Unstopped State.reset ∧ State.reset.phase = .idle ∧ State.reset.status ≠ .running :=
  ⟨⟨⟨rfl, rfl⟩, .inl ⟨rfl, rfl⟩⟩, ⟨⟨rfl, rfl⟩, .inr ⟨.inl rfl, rfl⟩⟩, ⟨rfl, rfl⟩, rfl, by decide⟩

/-- A step of each phase. -/
theorem test_witness_StepKeepsConfiguration :
    (∃ t, step (running roundTrip) = .next t) ∧ (∃ t, step { sending with txAnswers := [.ok] } = .next t) ∧
      (∃ t, step { awaiting with rxAnswers := [.byte 0x06] } = .next t) ∧
      ∃ t, step { reading with rxAnswers := [.byte 0x02] } = .next t :=
  ⟨⟨_, rfl⟩, ⟨_, rfl⟩, ⟨_, rfl⟩, _, rfl⟩

theorem test_witness_GhostLogsOnlyGrow :
    ∃ t, step { reading with rxAnswers := [.byte 0x02], errIo := true, errProtocol := true } = .next t := ⟨_, rfl⟩

/-- Two states that differ in a ghost field: with a next step, with a recorded fault, with a recorded refusal. -/
theorem test_witness_StepIgnoresGhostState :
    (SameButGhost (running roundTrip) { running roundTrip with txLog := [0x15] } ∧
        ∃ t, step (running roundTrip) = .next t) ∧
      (∃ f, step { running roundTrip with fault := some .seqSend } = .fault f) ∧
      ∃ r, step { running roundTrip with refused := some .badRef } = .refused r :=
  ⟨⟨rfl, _, rfl⟩, ⟨_, rfl⟩, _, rfl⟩

theorem test_witness_ChannelIsUsedOneWay :
    (sending.phase = .tx ∧ ∃ t, step { sending with txAnswers := [.ok] } = .next t) ∧
      (awaiting.phase = .ackWait ∧ ∃ t, step { awaiting with rxAnswers := [.byte 0x06] } = .next t) ∧
      (running roundTrip).phase = .idle ∧ ∃ t, step (running roundTrip) = .next t :=
  ⟨⟨rfl, _, rfl⟩, ⟨rfl, _, rfl⟩, rfl, _, rfl⟩

theorem test_witness_HostIndexAdvancesByOne :
    ∃ t, step { awaiting with rxWant := 0, rxAnswers := [.byte 0x06] } = .next t ∧ t.hpc = 2 := ⟨_, rfl, rfl⟩

theorem test_witness_LoadingStartsProgram :
    (State.reset.phase = .idle ∧ State.reset.status ≠ .running) ∧
      ¬ ((running roundTrip).phase = .idle ∧ (running roundTrip).status ≠ .running) := by decide

/-- The least parameters R9 allows, and the unbounded ones. -/
theorem test_witness_ResetMeetsInvariants :
    Params.wf { maxResp := 2, maxCmdBytes := some 1206 } = true ∧ Params.initial.wf = true := by decide

theorem test_witness_StepKeepsBlockInv :
    BlockInv sending ∧ BlockInv awaiting ∧ (∃ t, step sending = .next t) ∧ ∃ t, step awaiting = .next t :=
  ⟨sending_blockInv, awaiting_blockInv, ⟨_, rfl⟩, _, rfl⟩

theorem test_witness_StepKeepsHostInv :
    HostInv (running roundTrip) ∧ HostInv awaiting ∧ (∃ t, step (running roundTrip) = .next t) ∧
      ∃ t, step awaiting = .next t :=
  ⟨running_hostInv, awaiting_hostInv, ⟨_, rfl⟩, _, rfl⟩

theorem test_witness_StepKeepsCounts :
    BlockInv sending ∧ CountInv sending ∧ BlockInv awaiting ∧ CountInv awaiting ∧
      (∃ t, step sending = .next t) ∧ ∃ t, step awaiting = .next t :=
  ⟨sending_blockInv, rfl, awaiting_blockInv, rfl, ⟨_, rfl⟩, _, rfl⟩

/-- Reset, with a program loaded and one step taken. -/
theorem test_witness_ReachableStatesKeepR35 :
    ∃ s, Reachable s ∧ s.phase = .tx :=
  ⟨_, .step (.load roundTrip (.reset Params.initial (by decide)) rfl) rfl, rfl⟩

/-- A run that is DONE, and one that is HALTED: its command's first byte was not taken. -/
theorem test_witness_EndedRunsAreFinal :
    (Reachable { State.reset with params := Params.initial } ∧ State.reset.status ≠ .running) ∧
      ∃ s, Reachable s ∧ s.status = .halted 0 .ioError ∧ s.result = some (.err (.ioWrite 0 4)) :=
  ⟨⟨.reset Params.initial (by decide), by decide⟩,
    _, .step (.step (.load roundTrip (.offerTx .fail (.reset Params.initial (by decide))) rfl) rfl) rfl, rfl, rfl⟩

theorem awaiting_blockInv_of (answers : List RxAnswer) : BlockInv { awaiting with rxAnswers := answers } :=
  { awaiting_blockInv with }

theorem test_witness_AnsweredTransmissionEnds :
    ∃ s : State, BlockInv s ∧ Unstopped s ∧ s.phase = .tx ∧ s.txq.length ≤ s.txAnswers.length :=
  ⟨{ sending with txAnswers := [.ok, .ok, .fail] }, sending_blockInv_of _, ⟨rfl, rfl⟩, rfl, by decide⟩

theorem test_witness_AnsweredAwaitEnds :
    ∃ s : State, BlockInv s ∧ Unstopped s ∧ s.phase = .ackWait ∧ s.rxWant + 1 ≤ s.rxAnswers.length :=
  ⟨{ awaiting with rxAnswers := [.byte 0x06, .byte 0x00, .fail] }, awaiting_blockInv_of _, ⟨rfl, rfl⟩, rfl,
    by decide⟩

/-- No vertex, 65535 vertices, and lists of different lengths. -/
theorem test_witness_PolylineLayout :
    (([] : List Word).length = ([] : List Word).length ∧ ([] : List Word).length ≤ 65535) ∧
      (List.replicate 65535 (0 : Word)).length ≤ 65535 ∧ ([1] : List Word).length ≠ ([] : List Word).length :=
  ⟨by decide, by rw [List.length_replicate], by decide⟩

theorem test_witness_PutStringExpansion :
    (List.replicate 511 'O').length ≤ 511 ∧ 511 < (List.replicate 512 'O').length ∧
      (3 : Word).toNat ≠ ['O', 'K'].length :=
  ⟨by rw [List.length_replicate], by rw [List.length_replicate]; decide, by decide⟩

theorem test_witness_ContrastSurvivesOff : (200 : Word) ≠ 0 := by decide

theorem test_witness_WrongModeChangesTheBytes : ([0x00] : List Byte) ≠ [] := by decide

end Sys2Proof.Tests
end

section
/-! PROOFS. The statements of 10_state.md: which steps are enabled (R25, R31, R32), completion (R38), the ghost state
(R30), and the invariants of the block and of the host (R35, R32, R38). -/

namespace Sys2Proof.Machine

/-! ### Completion (R38) -/

theorem Result.errorKind?_eq_none {r : Result} (h : ∀ e, r ≠ .err e) : r.errorKind? = none := by
  cases r with
  | err e => exact absurd rfl (h e)
  | pair hi lo => rfl
  | val w => rfl
  | sent m => rfl
  | noData => rfl
  | data bs => rfl

theorem Result.ne_err_of_errorKind? {r : Result} (h : r.errorKind? = none) (e : BlockError) : r ≠ .err e := by
  rintro rfl
  exact nomatch h

theorem State.hpcAfter_ok {s : State} {r : Result} (h : r.errorKind? = none) : s.hpcAfter r = s.hpc + 1 := by
  rw [State.hpcAfter, h]

theorem State.statusAfter_ok {s : State} {r : Result} (h : r.errorKind? = none) :
    s.statusAfter r = if s.hpc + 1 = s.prog.length then .done else s.status := by
  rw [State.statusAfter, h]

/-- Settles O34: `hpcAfter` and `statusAfter` on the two kinds of result. -/
theorem completeWrites : Obligations.CompleteWrites := by
  intro r s
  constructor
  · rintro e rfl
    rfl
  · intro hr
    have hk := Result.errorKind?_eq_none hr
    rw [State.complete, State.hpcAfter_ok hk, State.statusAfter_ok hk]

/-! ### Loading (R32) -/

theorem State.loadProgram_eq_none {s : State} (P : List ProgCell) (h : ¬ s.MayLoad) : s.loadProgram P = none :=
  if_neg h

/-- Settles O44: the model tests for the empty program, the statement for a positive length. -/
theorem loadingStartsProgram : Obligations.LoadingStartsProgram := by
  intro s P
  refine ⟨fun hload => ?_, State.loadProgram_eq_none P⟩
  have hload : s.MayLoad := hload
  rw [State.loadProgram, if_pos hload]
  cases P with
  | nil => rfl
  | cons c rest => simp

/-! ### Which steps are enabled (R25, R31, R32) -/

theorem State.unlessStopped_fault {s : State} {f : ModelFault} (hf : s.fault = some f) (k : Step) :
    s.unlessStopped k = .fault (.recorded f) := by
  simp [State.unlessStopped, hf]

theorem State.unlessStopped_refused {s : State} {r : RefusalReason} (hf : s.fault = none) (hr : s.refused = some r)
    (k : Step) : s.unlessStopped k = .refused (.recorded r) := by
  simp [State.unlessStopped, hf, hr]

theorem State.issue_not_ready {s : State} (hu : Unstopped s) (hready : ¬ s.HostReady)
    (refusal : Option RefusalReason) (body : State) : s.issue refusal body = .next s := by
  unfold State.issue
  rw [State.unlessStopped_eq hu.1 hu.2, if_neg hready]

/-- Every instruction the host issues acts through ISSUE (R32). -/
theorem exec_eq_issue {i : Instr} (hi : Instr.isIssued i = true) (s : State) :
    ∃ refusal body, exec i s = s.issue refusal body := by
  cases i with
  | encodeWord v => exact ⟨_, _, rfl⟩
  | decodeWord hi lo => exact ⟨_, _, rfl⟩
  | sendWords ws => exact ⟨_, _, rfl⟩
  | sendRaw bs => exact ⟨_, _, rfl⟩
  | awaitAck n => exact ⟨_, _, rfl⟩
  | reservedHostop header => exact ⟨some .reservedSelector, s, rfl⟩
  | wordFrame h l => exact ⟨none, s.startTx (.sendWords [joinBytes h l]) [h, l], rfl⟩
  | ackAccepted => exact nomatch hi
  | notAck a => exact nomatch hi
  | putString codes =>
    change ∃ refusal body, execPutString codes s = s.issue refusal body
    unfold execPutString
    split
    · exact ⟨_, _, rfl⟩
    · exact ⟨_, _, rfl⟩

/-- The two rows of an acknowledgement byte act through its RX step (R143; assumption 8). -/
theorem exec_eq_ackByte {i : Instr} (hi : Instr.isIssued i = false) (s : State) : ∃ a, exec i s = s.ackByte a := by
  cases i with
  | ackAccepted => exact ⟨_, rfl⟩
  | notAck a => exact ⟨a, rfl⟩
  | _ => exact nomatch hi

/-- No instruction acts on a stopped state: each asks first whether one is recorded (R31). -/
theorem exec_eq_unlessStopped (i : Instr) (s : State) : ∃ k, exec i s = s.unlessStopped k := by
  cases hi : Instr.isIssued i with
  | true =>
    obtain ⟨refusal, body, h⟩ := exec_eq_issue hi s
    exact ⟨_, h⟩
  | false =>
    obtain ⟨a, h⟩ := exec_eq_ackByte hi s
    exact ⟨_, h⟩

/-- Settles O36: `step` and `exec` ask first for a recorded fault or refusal, and with one recorded the status is
RUNNING, in which nothing is loaded. -/
theorem stoppedMachineHasNoStep : Obligations.StoppedMachineHasNoStep := by
  refine ⟨fun s f hf => ⟨State.unlessStopped_fault hf _, fun i => ?_⟩,
    fun s r hf hr => ⟨State.unlessStopped_refused hf hr _, fun i => ?_⟩, fun s P hinv hstop => ?_⟩
  · obtain ⟨k, hk⟩ := exec_eq_unlessStopped i s
    rw [hk, State.unlessStopped_fault hf]
  · obtain ⟨k, hk⟩ := exec_eq_unlessStopped i s
    rw [hk, State.unlessStopped_refused hf hr]
  · exact State.loadProgram_eq_none P fun hload => hload.2 (hinv.stopped hstop)

/-- Settles O37: the instruction acts through ISSUE, which phase IDLE alone enables. -/
theorem busyBlockIssuesNothing : Obligations.BusyBlockIssuesNothing := by
  intro s i hu hbusy hi
  obtain ⟨refusal, body, h⟩ := exec_eq_issue hi s
  rw [h]
  exact State.issue_not_ready hu (fun ⟨_, hidle, _⟩ => hbusy hidle) refusal body

theorem State.fetch?_of_hostReady {s : State} (h : s.HostReady) : s.fetch? = s.prog[s.hpc]? := if_pos h

/-- Settles O35: the branch of `step` that the phase and the next answer select. -/
theorem stepRunsDecodedInstruction : Obligations.StepRunsDecodedInstruction := by
  constructor
  · intro s c hready hc
    have hidle : s.phase = .idle := hready.2.1
    rw [step, State.unlessStopped_eq hready.unstopped.1 hready.unstopped.2]
    simp only [hidle, State.fetch?_of_hostReady hready, hc]
  · intro s a more hphase hu hrx
    rw [step, State.unlessStopped_eq hu.1 hu.2]
    simp only [hphase, hrx]

/-! ### What a step keeps and appends (R30, R33, R38) -/

/-- Settles O39: every effect of a step is made of updates that write neither field. -/
theorem stepKeepsConfiguration : Obligations.StepKeepsConfiguration := by
  intro s t h
  cases (step_effect h).2 <;> exact ⟨rfl, rfl⟩

/-- A log with at most one byte more (R30). -/
def GrewByOne (old new : List Byte) : Prop := ∃ bs, new = old ++ bs ∧ bs.length ≤ 1

theorem GrewByOne.unchanged (log : List Byte) : GrewByOne log log := ⟨[], by simp, by simp⟩

theorem GrewByOne.appended (log : List Byte) (b : Byte) : GrewByOne log (log ++ [b]) := ⟨[b], rfl, by simp⟩

/-- What a step may do to the ghost fields of R30. -/
structure GhostGrows (s t : State) : Prop where
  txLog : GrewByOne s.txLog t.txLog
  rxLog : GrewByOne s.rxLog t.rxLog
  errIo : s.errIo = true → t.errIo = true
  errProtocol : s.errProtocol = true → t.errProtocol = true

theorem GhostGrows.unchanged (s : State) : GhostGrows s s :=
  ⟨.unchanged _, .unchanged _, id, id⟩

theorem GhostGrows.txTaken (s : State) (b : Byte) (rest : List Byte) : GhostGrows s (s.txTaken b rest) :=
  ⟨.appended _ b, .unchanged _, id, id⟩

theorem GhostGrows.rxTaken (s : State) (b : Byte) : GhostGrows s (s.rxTaken b) :=
  ⟨.unchanged _, .appended _ b, id, id⟩

/-- Raising an error sets a flag and clears none. -/
theorem GhostGrows.raise {s t : State} (h : GhostGrows s t) (e : BlockError) : GhostGrows s (t.raise e) :=
  ⟨h.txLog, h.rxLog, fun hs => by simp [h.errIo hs], fun hs => by simp [h.errProtocol hs]⟩

theorem StepEffect.ghostGrows {s t : State} (h : StepEffect s t) : GhostGrows s t := by
  have same := GhostGrows.unchanged s
  cases h with
  | same => exact same
  | refused r hready => exact { same with }
  | faulted f hready => exact { same with }
  | validation hready => exact { same with }
  | codec i r hready hi hfit hok => exact { same with }
  | beginTx i o image hready hi hsend ho hl hm ha => exact { same with }
  | beginAck n hready hi ha hn => exact { same with }
  | txMore b rest hp hq hrest => exact { GhostGrows.txTaken s b rest with }
  | txLast b hp hq => exact { GhostGrows.txTaken s b [] with }
  | txFail hp hq => exact { GhostGrows.raise same (.ioWrite _ _) with }
  | ackFail hp => exact { GhostGrows.raise same (.ioRead _ _ _) with }
  | ackRejected a hp ha => exact { (GhostGrows.rxTaken s a).raise (.protocol a) with }
  | ackOnly hp hw => exact { GhostGrows.rxTaken s 0x06 with }
  | ackMore hp hw => exact { GhostGrows.rxTaken s 0x06 with }
  | payloadFail hp => exact { GhostGrows.raise same (.ioRead _ _ _) with }
  | payloadMore b hp hw => exact { GhostGrows.rxTaken s b with }
  | payloadLast b hp hw => exact { GhostGrows.rxTaken s b with }

/-- Settles O40: a byte is logged where one is taken, and a flag changes only where an error is raised. -/
theorem ghostLogsOnlyGrow : Obligations.GhostLogsOnlyGrow := by
  intro s t h
  obtain ⟨htx, hrx, hio, hprotocol⟩ := (step_effect h).2.ghostGrows
  exact ⟨htx, hrx, hio, hprotocol⟩

/-- `t` has one result more than `s`, recorded, and the index stands where R38 puts it. -/
def CompletedOne (s t : State) : Prop :=
  ∃ r, t.results = s.results ++ [r] ∧ t.result = some r ∧
    ((∃ e, r = .err e) ∧ t.hpc = s.hpc ∨ (∀ e, r ≠ .err e) ∧ t.hpc = s.hpc + 1)

theorem CompletedOne.complete {s u : State} (hres : u.results = s.results) (hhpc : u.hpc = s.hpc) {r : Result}
    (hok : r.errorKind? = none) : CompletedOne s (u.complete r) :=
  ⟨r, by simp [hres], rfl, .inr ⟨Result.ne_err_of_errorKind? hok, by simp [State.hpcAfter_ok hok, hhpc]⟩⟩

theorem CompletedOne.raise {s u : State} (hres : u.results = s.results) (hhpc : u.hpc = s.hpc) (e : BlockError) :
    CompletedOne s (u.raise e) :=
  ⟨.err e, by simp [hres], rfl, .inl ⟨⟨e, rfl⟩, hhpc⟩⟩

theorem StepEffect.completedOne {s t : State} (h : StepEffect s t) :
    (t.results = s.results ∧ t.hpc = s.hpc) ∨ CompletedOne s t := by
  cases h with
  | same => exact .inl ⟨rfl, rfl⟩
  | refused r hready => exact .inl ⟨rfl, rfl⟩
  | faulted f hready => exact .inl ⟨rfl, rfl⟩
  | validation hready => exact .inl ⟨rfl, rfl⟩
  | codec i r hready hi hfit hok => exact .inr (.complete rfl rfl hok)
  | beginTx i o image hready hi hsend ho hl hm ha => exact .inl ⟨rfl, rfl⟩
  | beginAck n hready hi ha hn => exact .inl ⟨rfl, rfl⟩
  | txMore b rest hp hq hrest => exact .inl ⟨rfl, rfl⟩
  | txLast b hp hq => exact .inr (.complete rfl rfl rfl)
  | txFail hp hq => exact .inr (.raise rfl rfl _)
  | ackFail hp => exact .inr (.raise rfl rfl _)
  | ackRejected a hp ha => exact .inr (.raise rfl rfl _)
  | ackOnly hp hw => exact .inr (.complete rfl rfl rfl)
  | ackMore hp hw => exact .inl ⟨rfl, rfl⟩
  | payloadFail hp => exact .inr (.raise rfl rfl _)
  | payloadMore b hp hw => exact .inl ⟨rfl, rfl⟩
  | payloadLast b hp hw => exact .inr (.complete rfl rfl rfl)

/-- Settles O43: results and index are written by a completion alone. -/
theorem hostIndexAdvancesByOne : Obligations.HostIndexAdvancesByOne :=
  fun _ _ h => (step_effect h).2.completedOne

/-! ### The block's invariant (R35 items 1 to 6, R27, R28) -/

/-- A completion empties the fields of the operation, so what it leaves needs no premise. -/
theorem BlockInv.complete (r : Result) (s : State) : BlockInv (s.complete r) where
  idle_iff := by simp
  txq_empty := by simp
  rx_empty := by simp
  ackWait_buf := by simp
  tx_ack := by simp
  rx_ack := by simp
  txq_nonempty := by simp
  tx_image := by simp
  want_bound := by simp
  payload_short := by simp

theorem BlockInv.raise (e : BlockError) (s : State) : BlockInv (s.raise e) := BlockInv.complete (.err e) (s.noteError e)

theorem BlockInv.beginTx {s : State} (h : BlockInv s) (hidle : s.phase = .idle) {o : HostOp} {image : List Byte}
    (ho : HostOp.image? o = some image) (hl : 2 ≤ image.length) (ha : s.ackPending = false) :
    BlockInv (s.beginTx o image) where
  idle_iff := by simp
  txq_empty := by simp
  rx_empty _ _ := h.rx_empty (by simp [hidle]) (by simp [hidle])
  ackWait_buf := by simp
  tx_ack _ := ha
  rx_ack := by simp
  txq_nonempty _ := by rintro rfl; simp at hl
  tx_image _ := ⟨o, image, rfl, ho, Nat.zero_le _, rfl⟩
  want_bound := h.want_bound
  payload_short := by simp

theorem BlockInv.beginAck {s : State} (h : BlockInv s) (hidle : s.phase = .idle) {n : Nat}
    (hn : n ≤ s.params.maxResp) (ha : s.ackPending = true) : BlockInv (s.beginAck n) where
  idle_iff := by simp
  txq_empty _ := h.txq_empty (by simp [hidle])
  rx_empty := by simp
  ackWait_buf _ := rfl
  tx_ack := by simp
  rx_ack _ := ha
  txq_nonempty := by simp
  tx_image := by simp
  want_bound := hn
  payload_short := by simp

/-- A byte of the command is taken and one is left: the queue is still the image after the bytes taken (R27). -/
theorem BlockInv.txTaken {s : State} (h : BlockInv s) (hp : s.phase = .tx) {b : Byte} {rest : List Byte}
    (hq : s.txq = b :: rest) (hrest : rest ≠ []) : BlockInv (s.txTaken b rest) :=
  { h with
    txq_empty := fun hne => absurd hp hne
    txq_nonempty := fun _ => hrest
    tx_image := fun _ => by
      obtain ⟨o, image, hop, ho, -, hdrop⟩ := h.tx_image hp
      have hcons : image.drop s.txSent = b :: rest := hdrop.symm.trans hq
      have hlt : s.txSent < image.length := by
        by_contra hge
        rw [List.drop_eq_nil_of_le (by omega)] at hcons
        exact nomatch hcons
      refine ⟨o, image, hop, ho, hlt, ?_⟩
      change rest = image.drop (s.txSent + 1)
      rw [← List.tail_drop, hcons, List.tail_cons] }

/-- The acknowledgement is accepted and a payload is wanted: the buffer is empty, so it is short (R28). -/
theorem BlockInv.ackMore {s : State} (h : BlockInv s) (hp : s.phase = .ackWait) (hw : s.rxWant ≠ 0) (a : Byte) :
    BlockInv { s.rxTaken a with phase := .payload } where
  idle_iff := by simpa [hp] using h.idle_iff
  txq_empty _ := h.txq_empty (by simp [hp])
  rx_empty := by simp
  ackWait_buf := by simp
  tx_ack := by simp
  rx_ack _ := h.rx_ack (.inl hp)
  txq_nonempty := by simp
  tx_image := by simp
  want_bound := h.want_bound
  payload_short _ := by
    change s.rxBuf.length < s.rxWant
    rw [h.ackWait_buf hp]
    exact Nat.pos_of_ne_zero hw

theorem BlockInv.payloadMore {s : State} (h : BlockInv s) (hp : s.phase = .payload) {b : Byte}
    (hw : s.rxBuf.length + 1 ≠ s.rxWant) : BlockInv { s.rxTaken b with rxBuf := s.rxBuf ++ [b] } :=
  { h with
    rx_empty := fun _ hne => absurd hp hne
    ackWait_buf := fun hack => by simp [hp] at hack
    payload_short := fun _ => by
      have hshort := h.payload_short hp
      simp only [List.length_append, List.length_singleton]
      change s.rxBuf.length + 1 < s.rxWant
      omega }

theorem BlockInv.stepEffect {s t : State} (h : BlockInv s) (he : StepEffect s t) : BlockInv t := by
  cases he with
  | same => exact h
  | refused r hready => exact { h with }
  | faulted f hready => exact { h with }
  | validation hready => exact { h with }
  | codec i r hready hi hfit hok => exact .complete _ _
  | beginTx i o image hready hi hsend ho hl hm ha => exact h.beginTx hready.2.1 ho hl ha
  | beginAck n hready hi ha hn => exact h.beginAck hready.2.1 hn ha
  | txMore b rest hp hq hrest => exact { h.txTaken hp hq hrest with }
  | txLast b hp hq => exact .complete _ _
  | txFail hp hq => exact .raise _ _
  | ackFail hp => exact .raise _ _
  | ackRejected a hp ha => exact .raise _ _
  | ackOnly hp hw => exact .complete _ _
  | ackMore hp hw => exact h.ackMore hp hw _
  | payloadFail hp => exact .raise _ _
  | payloadMore b hp hw => exact h.payloadMore hp hw
  | payloadLast b hp hw => exact .complete _ _

/-- Settles O47: a completion empties the operation's fields, and the other effects keep the image and the bound. -/
theorem stepKeepsBlockInv : Obligations.StepKeepsBlockInv :=
  fun _ _ hinv h => hinv.stepEffect (step_effect h).2

/-! ### The counts (R35 item 7) -/

theorem countInv_iff {s : State} : CountInv s ↔ s.sendsDone = s.awaitsDone + s.ackPending.toNat := Iff.rfl

/-- A command sent whole: none was outstanding before, one is now. -/
theorem CountInv.commandSent {s : State} (h : CountInv s) (ha : s.ackPending = false) : CountInv s.commandSent := by
  simpa [countInv_iff, ha] using h

/-- An AWAIT_ACK ends: one was outstanding before, none is now. -/
theorem CountInv.ackRetired {s : State} (h : CountInv s) (ha : s.ackPending = true) : CountInv s.ackRetired := by
  simpa [countInv_iff, ha] using h

theorem CountInv.stepEffect {s t : State} (hc : CountInv s) (hb : BlockInv s) (he : StepEffect s t) :
    CountInv t := by
  cases he with
  | same => exact hc
  | refused r hready => exact hc
  | faulted f hready => exact hc
  | validation hready => exact hc
  | codec i r hready hi hfit hok => exact hc
  | beginTx i o image hready hi hsend ho hl hm ha => exact hc
  | beginAck n hready hi ha hn => exact hc
  | txMore b rest hp hq hrest => exact hc
  | txLast b hp hq => exact hc.commandSent (hb.tx_ack hp)
  | txFail hp hq => exact hc
  | ackFail hp => exact hc.ackRetired (hb.rx_ack (.inl hp))
  | ackRejected a hp ha => exact hc.ackRetired (hb.rx_ack (.inl hp))
  | ackOnly hp hw => exact hc.ackRetired (hb.rx_ack (.inl hp))
  | ackMore hp hw => exact hc
  | payloadFail hp => exact hc.ackRetired (hb.rx_ack (.inr hp))
  | payloadMore b hp hw => exact hc
  | payloadLast b hp hw => exact hc.ackRetired (hb.rx_ack (.inr hp))

/-- Settles O49: only the last byte of a command and the end of an AWAIT_ACK touch the counts, each where
`ack_pending` is known. -/
theorem stepKeepsCounts : Obligations.StepKeepsCounts :=
  fun _ _ hb hc h => hc.stepEffect hb (step_effect h).2

/-! ### Reset and the reachable states (R35) -/

theorem reset_blockInv (p : Params) : BlockInv { State.reset with params := p } where
  idle_iff := by simp [State.reset]
  txq_empty _ := rfl
  rx_empty _ _ := ⟨rfl, rfl⟩
  ackWait_buf _ := rfl
  tx_ack _ := rfl
  rx_ack := by simp [State.reset]
  txq_nonempty := by simp [State.reset]
  tx_image := by simp [State.reset]
  want_bound := Nat.zero_le _
  payload_short := by simp [State.reset]

theorem reset_hostInv (p : Params) : HostInv { State.reset with params := p } where
  results_fit k hk := absurd hk (Nat.not_lt_zero k)
  results_length := .inl rfl
  hpc_le := Nat.le_refl 0
  busy hbusy := absurd rfl hbusy
  tx_op := by simp [State.reset]
  rx_op := by simp [State.reset]
  done_end _ := .inl rfl
  report_done := by simp [State.reset]
  halt_holds := by simp [State.reset]
  running_before := by simp [State.reset]
  stopped hstop := absurd ⟨rfl, rfl⟩ hstop

theorem reset_countInv (p : Params) : CountInv { State.reset with params := p } := rfl

/-- Settles O46: the three invariants and `CleanEntry` for the reset values. -/
theorem resetMeetsInvariants : Obligations.ResetMeetsInvariants :=
  fun p _ => ⟨reset_blockInv p, reset_hostInv p, reset_countInv p, rfl, rfl, rfl, rfl, rfl⟩

/-- Where a program is loaded, the loaded state is the one R32 gives. -/
theorem State.loadProgram_some {s t : State} {P : List ProgCell} (h : s.loadProgram P = some t) :
    s.MayLoad ∧
      t = { s with
        prog := P, hpc := 0, results := [], hostReport := none, status := if P = [] then .done else .running } := by
  unfold State.loadProgram at h
  split at h
  · next hload => exact ⟨hload, (Option.some.inj h).symm⟩
  · exact nomatch h

/-- The invariants of the block hold from reset on: loading and the channel's answers write none of their fields. -/
theorem Reachable.blockInv_countInv {s : State} (h : Reachable s) : BlockInv s ∧ CountInv s := by
  induction h with
  | reset p hp => exact ⟨reset_blockInv p, reset_countInv p⟩
  | step _ hs ih =>
    obtain ⟨hb, hc⟩ := ih
    exact ⟨stepKeepsBlockInv _ _ hb hs, stepKeepsCounts _ _ hb hc hs⟩
  | load P _ hl ih =>
    obtain ⟨hb, hc⟩ := ih
    obtain ⟨-, rfl⟩ := State.loadProgram_some hl
    exact ⟨{ hb with }, hc⟩
  | offerTx a _ ih =>
    obtain ⟨hb, hc⟩ := ih
    exact ⟨{ hb with }, hc⟩
  | offerRx a _ ih =>
    obtain ⟨hb, hc⟩ := ih
    exact ⟨{ hb with }, hc⟩

theorem CountInv.awaits_le {s : State} (h : CountInv s) : s.awaitsDone ≤ s.sendsDone :=
  Nat.le.intro h.symm

theorem CountInv.awaits_eq {s : State} (h : CountInv s) (ha : s.ackPending = false) : s.awaitsDone = s.sendsDone := by
  rw [countInv_iff, ha] at h
  exact h.symm

/-- Settles O50, from the invariants that every step keeps. -/
theorem reachableStatesKeepR35 : Obligations.ReachableStatesKeepR35 := by
  intro s hs
  obtain ⟨hb, hc⟩ := hs.blockInv_countInv
  exact ⟨hb.idle_iff, hb.txq_empty, fun ⟨hack, hpayload⟩ => hb.rx_empty hack hpayload, hb.ackWait_buf, hb.tx_ack,
    hb.rx_ack, hc.awaits_le, fun ha _ => hc.awaits_eq ha⟩

/-! ### The host's bookkeeping (R32, R38, R86, R212) -/

section HostInv

variable {s : State}

/-- While the program runs, the results are exactly those of the operations before `H.hpc`. -/
theorem HostInv.results_length_running (h : HostInv s) (hrun : s.status = .running) :
    s.results.length = s.hpc := by
  obtain hlen | ⟨-, i, e, hhalt⟩ := h.results_length
  · exact hlen
  · rw [hrun] at hhalt
    exact nomatch hhalt

/-- While the program runs, no report stands. -/
theorem HostInv.no_report (h : HostInv s) (hrun : s.status = .running) (i : Nat) (e : HostError) :
    s.hostReport ≠ some (i, e) := by
  intro hrep
  obtain ⟨hdone, -⟩ := h.report_done i e hrep
  rw [hrun] at hdone
  exact nomatch hdone

/-- The result of an earlier operation is still there after one more. -/
theorem HostInv.results_fit_append (h : HostInv s) (hrun : s.status = .running) (r : Result) {k : Nat}
    (hk : k < s.hpc) :
    ∃ i r', s.program[k]? = some i ∧ (s.results ++ [r])[k]? = some r' ∧ ResultFits i r' := by
  obtain ⟨i, r', hi, hr, hfit⟩ := h.results_fit k hk
  exact ⟨i, r', hi, by rw [List.getElem?_append_left (by rw [h.results_length_running hrun]; exact hk), hr], hfit⟩

/-- The result of a completion stands at the index of the operation that completes. -/
theorem HostInv.result_at_hpc (h : HostInv s) (hrun : s.status = .running) (r : Result) :
    (s.results ++ [r])[s.hpc]? = some r := by
  rw [← h.results_length_running hrun, List.getElem?_concat_length]

/-- The operation at `H.hpc` completes without error, with a result of its form. -/
theorem HostInv.complete (h : HostInv s) (hu : Unstopped s) (hrun : s.status = .running) {i : Instr} {r : Result}
    (hi : s.program[s.hpc]? = some i) (hfit : ResultFits i r) (hok : r.errorKind? = none) :
    HostInv (s.complete r) := by
  have hlt := h.running_before hrun
  have hstatus : (s.complete r).status = if s.hpc + 1 = s.prog.length then .done else .running := by
    rw [State.complete_status, State.statusAfter_ok hok, hrun]
  have hhpc : (s.complete r).hpc = s.hpc + 1 := State.hpcAfter_ok hok
  exact
    { results_fit := fun k hk => by
        rw [hhpc] at hk
        obtain hk | rfl := Nat.lt_succ_iff_lt_or_eq.mp hk
        · exact h.results_fit_append hrun r hk
        · exact ⟨i, r, hi, h.result_at_hpc hrun r, hfit⟩
      results_length := .inl (by simp [State.hpcAfter_ok hok, h.results_length_running hrun])
      hpc_le := by rw [hhpc]; exact hlt
      busy := by simp
      tx_op := by simp
      rx_op := by simp
      done_end := fun hdone => by
        rw [hstatus] at hdone
        split at hdone
        · next hend => exact .inl (hhpc.trans hend)
        · exact nomatch hdone
      report_done := fun j e hrep => absurd hrep (h.no_report hrun j e)
      halt_holds := fun j e hhalt => by
        rw [hstatus] at hhalt
        split at hhalt <;> exact nomatch hhalt
      running_before := fun hrunning => by
        rw [hstatus] at hrunning
        split at hrunning
        · exact nomatch hrunning
        · next hne =>
          rw [hhpc, State.complete_prog]
          omega
      stopped := fun hstop => absurd hu hstop }

/-- The operation at `H.hpc` fails: its error is both `S.result` and its own result (R212). -/
theorem HostInv.raise (h : HostInv s) (hu : Unstopped s) (hrun : s.status = .running) (e : BlockError) :
    HostInv (s.raise e) where
  results_fit _ hk := h.results_fit_append hrun (.err e) hk
  results_length := .inr ⟨by simp [h.results_length_running hrun], s.hpc, e.kind, rfl⟩
  hpc_le := h.hpc_le
  busy := by simp
  tx_op := by simp
  rx_op := by simp
  done_end := by simp
  report_done j e' hrep := absurd hrep (h.no_report hrun j e')
  halt_holds j k hhalt := by
    cases hhalt
    exact ⟨rfl, h.running_before hrun, e, rfl, rfl, h.result_at_hpc hrun _⟩
  running_before := by simp
  stopped hstop := absurd hu hstop

/-- A failed pre-check ends the program at its entry (assumption 9). -/
theorem HostInv.hostError (h : HostInv s) (hready : s.HostReady) (e : HostError) : HostInv (s.hostError e) := by
  obtain ⟨hrun, hidle, -, hfault, hrefused, hlt⟩ := hready
  exact
    { h with
      results_length := .inl (h.results_length_running hrun)
      busy := fun hbusy => absurd hidle hbusy
      done_end := fun _ => .inr ⟨e, rfl⟩
      report_done := fun i e' hrep => by
        cases hrep
        exact ⟨rfl, rfl, hlt⟩
      halt_holds := by simp
      running_before := by simp
      stopped := fun hstop => absurd ⟨hfault, hrefused⟩ hstop }

theorem HostInv.beginTx (h : HostInv s) (hready : s.HostReady) {i : Instr} (hi : s.program[s.hpc]? = some i)
    (hsend : Instr.isSend i = true) (o : HostOp) (image : List Byte) : HostInv (s.beginTx o image) := by
  obtain ⟨hrun, -, -, -, -, hlt⟩ := hready
  exact
    { h with
      busy := fun _ => ⟨hrun, hlt⟩
      tx_op := fun _ => ⟨i, hi, hsend⟩
      rx_op := by simp }

theorem HostInv.beginAck (h : HostInv s) (hready : s.HostReady) {n : Nat}
    (hi : s.program[s.hpc]? = some (.awaitAck n)) : HostInv (s.beginAck n) := by
  obtain ⟨hrun, -, -, -, -, hlt⟩ := hready
  exact
    { h with
      busy := fun _ => ⟨hrun, hlt⟩
      tx_op := by simp
      rx_op := fun _ => ⟨n, hi, rfl⟩ }

theorem HostInv.ackMore (h : HostInv s) (hp : s.phase = .ackWait) (a : Byte) :
    HostInv { s.rxTaken a with phase := .payload } :=
  { h with
    busy := fun _ => h.busy (by simp [hp])
    tx_op := by simp
    rx_op := fun _ => h.rx_op (.inl hp) }

/-! The block steps' own fields, the counts and the logs are no part of the bookkeeping. -/

theorem HostInv.txDrawn (h : HostInv s) : HostInv { s with txAnswers := s.txAnswers.tail } := { h with }

theorem HostInv.txTaken (h : HostInv s) (b : Byte) (rest : List Byte) : HostInv (s.txTaken b rest) := { h with }

theorem HostInv.commandSent (h : HostInv s) : HostInv s.commandSent := { h with }

theorem HostInv.rxDrawn (h : HostInv s) : HostInv { s with rxAnswers := s.rxAnswers.tail } := { h with }

theorem HostInv.rxTaken (h : HostInv s) (b : Byte) : HostInv (s.rxTaken b) := { h with }

theorem HostInv.ackRetired (h : HostInv s) : HostInv s.ackRetired := { h with }

/-- Every command's operation has the form of a `Sent` result. -/
theorem ResultFits.sent {i : Instr} (hsend : Instr.isSend i = true) (m : Nat) : ResultFits i (.sent m) := by
  cases i with
  | sendWords ws => exact ⟨m, rfl⟩
  | sendRaw bs => exact ⟨m, rfl⟩
  | wordFrame h l => exact ⟨m, rfl⟩
  | putString codes => exact ⟨m, rfl⟩
  | _ => exact nomatch hsend

theorem ResultFits.noData : ResultFits (.awaitAck 0) .noData := .inl ⟨rfl, rfl⟩

theorem ResultFits.data {n : Nat} {bs : List Byte} (hn : bs.length = n) (hpos : 1 ≤ n) :
    ResultFits (.awaitAck n) (.data bs) :=
  .inr ⟨by omega, bs, rfl, by rw [hn]⟩

theorem HostInv.awaited (h : HostInv s) (hp : s.phase = .ackWait ∨ s.phase = .payload) :
    s.program[s.hpc]? = some (.awaitAck s.rxWant) := by
  obtain ⟨n, hi, rfl⟩ := h.rx_op hp
  exact hi

theorem HostInv.running_of_phase (h : HostInv s) {p : Phase} (hp : s.phase = p) (hne : p ≠ .idle) :
    s.status = .running :=
  (h.busy (hp.trans_ne hne)).1

theorem HostInv.stepEffect {t : State} (h : HostInv s) (hu : Unstopped s) (he : StepEffect s t) : HostInv t := by
  cases he with
  | same => exact h
  | refused r hready => exact { h with stopped := fun _ => hready.1 }
  | faulted f hready => exact { h with stopped := fun _ => hready.1 }
  | validation hready => exact h.hostError hready .validation
  | codec i r hready hi hfit hok => exact h.complete hu hready.1 hi hfit hok
  | beginTx i o image hready hi hsend ho hl hm ha => exact h.beginTx hready hi hsend o image
  | beginAck n hready hi ha hn => exact h.beginAck hready hi
  | txMore b rest hp hq hrest => exact h.txDrawn.txTaken b rest
  | txLast b hp hq =>
    obtain ⟨i, hi, hsend⟩ := h.tx_op hp
    exact (h.txDrawn.txTaken b []).commandSent.complete hu (h.running_of_phase hp (by decide)) hi (.sent hsend _) rfl
  | txFail hp hq => exact h.txDrawn.raise hu (h.running_of_phase hp (by decide)) _
  | ackFail hp => exact h.rxDrawn.ackRetired.raise hu (h.running_of_phase hp (by decide)) _
  | ackRejected a hp ha => exact (h.rxTaken a).ackRetired.raise hu (h.running_of_phase hp (by decide)) _
  | ackOnly hp hw =>
    have hi := h.awaited (.inl hp)
    rw [hw] at hi
    exact (h.rxTaken 0x06).ackRetired.complete hu (h.running_of_phase hp (by decide)) hi .noData rfl
  | ackMore hp hw => exact h.ackMore hp _
  | payloadFail hp => exact h.rxDrawn.ackRetired.raise hu (h.running_of_phase hp (by decide)) _
  | payloadMore b hp hw => exact { h with }
  | payloadLast b hp hw =>
    have hfit : ResultFits (.awaitAck s.rxWant) (.data (s.rxBuf ++ [b])) :=
      .data (by simpa using hw) (by omega)
    exact (h.rxTaken b).ackRetired.complete hu (h.running_of_phase hp (by decide)) (h.awaited (.inr hp)) hfit rfl

end HostInv

/-- Settles O48: a completion and an error each leave the result of the operation at `H.hpc`; no other effect
touches the results. -/
theorem stepKeepsHostInv : Obligations.StepKeepsHostInv := by
  intro s t hinv h
  obtain ⟨hu, he⟩ := step_effect h
  exact hinv.stepEffect hu he

/-! ### The ghost state is never read (R30) -/

/-- The ghost fields of the state: those of R30 and the counts of assumption 15. -/
structure Ghosts where
  errIo : Bool
  errProtocol : Bool
  txLog : List Byte
  rxLog : List Byte
  sendsDone : Nat
  awaitsDone : Nat

/-- `s` with the ghost fields `g` in place of its own. -/
def State.withGhosts (g : Ghosts) (s : State) : State :=
  { s with
    errIo := g.errIo, errProtocol := g.errProtocol, txLog := g.txLog, rxLog := g.rxLog,
    sendsDone := g.sendsDone, awaitsDone := g.awaitsDone }

/-- Two steps with one outcome, up to ghost fields of the next state. -/
inductive SameStep : Step → Step → Prop
  | next {s t : State} (h : SameButGhost s t) : SameStep (.next s) (.next t)
  | fault (f : Fault) : SameStep (.fault f) (.fault f)
  | refused (r : Refusal) : SameStep (.refused r) (.refused r)

theorem SameStep.outcomes {k k' : Step} (h : SameStep k k') :
    (∀ s', k = .next s' → ∃ t', k' = .next t' ∧ SameButGhost s' t') ∧
      (∀ f, k = .fault f → k' = .fault f) ∧ (∀ r, k = .refused r → k' = .refused r) := by
  cases h with
  | next h =>
    refine ⟨fun s' hs => ?_, fun f hf => (nomatch hf), fun r hr => (nomatch hr)⟩
    cases hs
    exact ⟨_, rfl, h⟩
  | fault f => exact ⟨fun s' hs => (nomatch hs), fun _ hf => hf, fun r hr => (nomatch hr)⟩
  | refused r => exact ⟨fun s' hs => (nomatch hs), fun f hf => (nomatch hf), fun _ hr => hr⟩

section Ghosts

variable {s : State} (g : Ghosts)

theorem SameButGhost.exists_withGhosts {t : State} (h : SameButGhost s t) : ∃ g, t = s.withGhosts g :=
  ⟨⟨t.errIo, t.errProtocol, t.txLog, t.rxLog, t.sendsDone, t.awaitsDone⟩, h.symm⟩

@[simp] theorem State.withGhosts_phase : (s.withGhosts g).phase = s.phase := rfl
@[simp] theorem State.withGhosts_txq : (s.withGhosts g).txq = s.txq := rfl
@[simp] theorem State.withGhosts_txAnswers : (s.withGhosts g).txAnswers = s.txAnswers := rfl
@[simp] theorem State.withGhosts_rxAnswers : (s.withGhosts g).rxAnswers = s.rxAnswers := rfl
@[simp] theorem State.withGhosts_fetch? : (s.withGhosts g).fetch? = s.fetch? := rfl

theorem SameStep.unlessStopped {k k' : Step} (h : SameStep k k') :
    SameStep (s.unlessStopped k) ((s.withGhosts g).unlessStopped k') := by
  cases hf : s.fault with
  | some f =>
    rw [State.unlessStopped_fault hf, State.unlessStopped_fault (s := s.withGhosts g) hf]
    exact .fault _
  | none =>
    cases hr : s.refused with
    | some r =>
      rw [State.unlessStopped_refused hf hr, State.unlessStopped_refused (s := s.withGhosts g) hf hr]
      exact .refused _
    | none =>
      rw [State.unlessStopped_eq hf hr, State.unlessStopped_eq (s := s.withGhosts g) hf hr]
      exact h

/-- ISSUE reads no ghost field, so only its body matters. -/
theorem SameStep.issue (refusal : Option RefusalReason) {body body' : State} (h : SameButGhost body body') :
    SameStep (s.issue refusal body) ((s.withGhosts g).issue refusal body') := by
  refine .unlessStopped g ?_
  by_cases hready : s.HostReady
  · rw [if_pos hready, if_pos (show (s.withGhosts g).HostReady from hready)]
    cases refusal with
    | some r => exact .next rfl
    | none => exact .next h
  · rw [if_neg hready, if_neg (show ¬ (s.withGhosts g).HostReady from hready)]
    exact .next rfl

/-- A test that reads no ghost field comes out alike. -/
theorem SameButGhost.ite {c c' : Prop} [Decidable c] [Decidable c'] {a a' b b' : State} (hc : c ↔ c')
    (ha : SameButGhost a a') (hb : SameButGhost b b') :
    SameButGhost (if c then a else b) (if c' then a' else b') := by
  by_cases h : c
  · rwa [if_pos h, if_pos (hc.mp h)]
  · rwa [if_neg h, if_neg (mt hc.mpr h)]

theorem SameButGhost.startTx (o : HostOp) (image : List Byte) :
    SameButGhost (s.startTx o image) ((s.withGhosts g).startTx o image) :=
  .ite .rfl rfl (.ite .rfl rfl (.ite .rfl rfl rfl))

theorem SameButGhost.startAck (n : Nat) : SameButGhost (s.startAck n) ((s.withGhosts g).startAck n) :=
  .ite .rfl (.ite .rfl rfl rfl) rfl

theorem SameButGhost.rxAckByte (a : Byte) : SameButGhost (s.rxAckByte a) ((s.withGhosts g).rxAckByte a) :=
  .ite .rfl (.ite .rfl rfl rfl) rfl

theorem SameButGhost.rxPayloadByte (b : Byte) :
    SameButGhost (s.rxPayloadByte b) ((s.withGhosts g).rxPayloadByte b) :=
  .ite .rfl rfl rfl

theorem SameStep.ackByte (a : Byte) : SameStep (s.ackByte a) ((s.withGhosts g).ackByte a) := by
  refine .unlessStopped g ?_
  rw [State.withGhosts_phase]
  split
  · exact .next (.rxAckByte g a)
  · exact .next rfl

theorem SameStep.txStep (ans : TxAnswer) : SameStep (s.txStep ans) ((s.withGhosts g).txStep ans) := by
  simp only [State.txStep, State.withGhosts_txq]
  cases s.txq with
  | nil => exact .fault _
  | cons b rest =>
    cases ans with
    | fail => exact .next rfl
    | ok =>
      by_cases hrest : rest = []
      · simp only [if_pos hrest]
        exact .next rfl
      · simp only [if_neg hrest]
        exact .next rfl

/-- An instruction's operands, checks and result come from `H` and the parameters, which hold no ghost field. -/
theorem SameStep.exec (i : Instr) : SameStep (exec i s) (exec i (s.withGhosts g)) := by
  cases i with
  | encodeWord v => exact .issue g _ rfl
  | decodeWord hi lo => exact .issue g _ rfl
  | sendWords ws => exact .issue g _ (.startTx g _ _)
  | sendRaw bs => exact .issue g _ (.startTx g _ _)
  | awaitAck n => exact .issue g _ (.startAck g _)
  | reservedHostop header =>
    exact .issue (s := s) g (some .reservedSelector) (body := s) (body' := s.withGhosts g) rfl
  | wordFrame h l => exact .issue (s := s) g none (.startTx g (.sendWords [joinBytes h l]) [h, l])
  | ackAccepted => exact .ackByte g _
  | notAck a => exact .ackByte g a
  | putString codes =>
    change SameStep (execPutString codes s) (execPutString codes (s.withGhosts g))
    unfold execPutString
    split
    · exact .issue g _ rfl
    · exact .issue g _ (.startTx g _ _)

theorem SameStep.step (s : State) : SameStep (step s) (step (s.withGhosts g)) := by
  refine .unlessStopped g ?_
  simp only [State.withGhosts_phase, State.withGhosts_fetch?, State.withGhosts_txAnswers,
    State.withGhosts_rxAnswers]
  cases s.phase with
  | idle =>
    cases s.fetch? with
    | some c => exact .exec g _
    | none => exact .next rfl
  | tx =>
    cases s.txAnswers with
    | cons ans more => exact .txStep g ans
    | nil => exact .next rfl
  | ackWait =>
    match s.rxAnswers with
    | .byte a :: more => exact .exec g _
    | .fail :: more => exact .next rfl
    | [] => exact .next rfl
  | payload =>
    match s.rxAnswers with
    | .byte b :: more => exact .next (.rxPayloadByte g b)
    | .fail :: more => exact .next rfl
    | [] => exact .next rfl

end Ghosts

/-- Settles O41: the two states are one state with other ghost fields, and every operation keeps that relation. -/
theorem stepIgnoresGhostState : Obligations.StepIgnoresGhostState := by
  intro s t hst
  obtain ⟨g, rfl⟩ := hst.exists_withGhosts
  exact (SameStep.step g s).outcomes

end Sys2Proof.Machine
end

section
/-! PROOFS. The statements of 20_memory.md: the byte order and alignment of a command's image (R54, R58), and the
half-duplex use of the channel (R53). -/

namespace Sys2Proof.Machine

/-! ### The image of a command (R54, R58, R72) -/

/-- Reassembly undoes the image: each Word is the join of its own two bytes. -/
theorem wordsOf_wordImage (ws : List Word) : wordsOf (wordImage ws) = .ok ws := by
  induction ws with
  | nil => rfl
  | cons w ws ih => simp [wordImage, wordsOf, ih]

theorem wordImage_getElem?_even (ws : List Word) (i : Nat) : (wordImage ws)[2 * i]? = ws[i]?.map hiByte := by
  induction ws generalizing i with
  | nil => rfl
  | cons w ws ih =>
    cases i with
    | zero => rfl
    | succ i => exact ih i

theorem wordImage_getElem?_odd (ws : List Word) (i : Nat) : (wordImage ws)[2 * i + 1]? = ws[i]?.map loByte := by
  induction ws generalizing i with
  | nil => rfl
  | cons w ws ih =>
    cases i with
    | zero => rfl
    | succ i => exact ih i

/-- Settles O10: the bytes at 2i and 2i+1 are the two halves of Word i, by induction on the Words before it. -/
theorem wordImageLayout : Obligations.WordImageLayout := by
  intro ws
  refine ⟨wordImage_length ws, wordsOf_wordImage ws, fun i w hw => ?_⟩
  have hhi : (wordImage ws)[2 * i]? = some (hiByte w) := by rw [wordImage_getElem?_even, hw, Option.map_some]
  have hlo : (wordImage ws)[2 * i + 1]? = some (loByte w) := by rw [wordImage_getElem?_odd, hw, Option.map_some]
  exact ⟨hiByte w, loByte w, hhi, hlo, hiByte_toNat w, loByte_toNat w⟩

/-! ### The two directions of the channel (R53, R62) -/

/-- No byte is written between `s` and `t`: neither is one logged nor an answer to a write used up. -/
def WriteSideKept (s t : State) : Prop := t.txLog = s.txLog ∧ t.txAnswers = s.txAnswers

/-- No byte is read between `s` and `t`: neither is one logged nor an answer to a read used up. -/
def ReadSideKept (s t : State) : Prop := t.rxLog = s.rxLog ∧ t.rxAnswers = s.rxAnswers

/-- Phase TX alone writes to the channel. -/
theorem StepEffect.writeSideKept {s t : State} (h : StepEffect s t) (hphase : s.phase ≠ .tx) :
    WriteSideKept s t := by
  cases h with
  | txMore b rest hp hq hrest => exact absurd hp hphase
  | txLast b hp hq => exact absurd hp hphase
  | txFail hp hq => exact absurd hp hphase
  | _ => exact ⟨rfl, rfl⟩

/-- The phases ACK_WAIT and PAYLOAD alone read from the channel. -/
theorem StepEffect.readSideKept {s t : State} (h : StepEffect s t) (hack : s.phase ≠ .ackWait)
    (hpayload : s.phase ≠ .payload) : ReadSideKept s t := by
  cases h with
  | ackFail hp => exact absurd hp hack
  | ackRejected a hp ha => exact absurd hp hack
  | ackOnly hp hw => exact absurd hp hack
  | ackMore hp hw => exact absurd hp hack
  | payloadFail hp => exact absurd hp hpayload
  | payloadMore b hp hw => exact absurd hp hpayload
  | payloadLast b hp hw => exact absurd hp hpayload
  | _ => exact ⟨rfl, rfl⟩

/-- Settles O42: each direction of the channel is used in its own phases alone, and IDLE is none of them. -/
theorem channelIsUsedOneWay : Obligations.ChannelIsUsedOneWay := by
  intro s t h
  have heffect := (step_effect h).2
  refine ⟨fun htx => ?_, fun hrx => ?_, fun hidle => ?_⟩
  · exact heffect.readSideKept (by simp [htx]) (by simp [htx])
  · obtain hack | hpayload := hrx
    · exact heffect.writeSideKept (by simp [hack])
    · exact heffect.writeSideKept (by simp [hpayload])
  · obtain ⟨htxLog, htxAnswers⟩ := heffect.writeSideKept (by simp [hidle])
    obtain ⟨hrxLog, hrxAnswers⟩ := heffect.readSideKept (by simp [hidle]) (by simp [hidle])
    exact ⟨htxLog, hrxLog, htxAnswers, hrxAnswers⟩

end Sys2Proof.Machine
end

section
/-! PROOFS. The statements of 30_encoding.md: the decoders and the encoder (R71, R74, R82, R83, R92), the checks of
R81 and the refusals they give (R86, R177), the issue of a Word frame and of the string-output command (R71, R92), and
the façade's expansions (R92, R93, R95). -/

namespace Sys2Proof.Machine

/-! ### The host header (R82, R83) -/

theorem header_high_toNat (header : Byte) : (header.extractLsb' 3 5).toNat = header.toNat / 8 := by
  have := header.isLt
  simp [BitVec.extractLsb', Nat.shiftRight_eq_div_pow]
  omega

theorem header_op_toNat (header : Byte) : (header.extractLsb' 0 3).toNat = header.toNat % 8 := by
  simp [BitVec.extractLsb']

/-- With bits `[7:3]` zero a header is its op field. -/
theorem header_toNat_of_high_zero {header : Byte} (h : header.extractLsb' 3 5 = 0) :
    header.toNat = (header.extractLsb' 0 3).toNat := by
  have hhigh : header.toNat / 8 = 0 := by rw [← header_high_toNat, h]; rfl
  rw [header_op_toNat]
  omega

theorem header_eq_of_fields {header : Byte} {op : BitVec 3} (hhigh : header.extractLsb' 3 5 = 0)
    (hop : header.extractLsb' 0 3 = op) : header = op.setWidth 8 := by
  refine BitVec.eq_of_toNat_eq ?_
  rw [header_toNat_of_high_zero hhigh, hop, BitVec.toNat_setWidth_of_le (by decide)]

theorem decodeHeader_reserved {header : Byte} (h : 5 ≤ header.toNat) (args : Operands) :
    decodeHeader header args = .reservedHostop header := by
  unfold decodeHeader
  split
  case h_6 => rfl
  all_goals omega

/-- Settles O1: bits `[7:3]` and the op field together are the header, and a header from 5 on is reserved. -/
theorem headerSelectsOperation : Obligations.HeaderSelectsOperation := by
  intro header args
  refine ⟨fun hhigh => ?_, fun hhigh => ⟨fun hop => ?_, fun hop => ?_, fun hop => ?_, fun hop => ?_, fun hop => ?_,
    fun hop => ?_⟩⟩
  · have hne : header.toNat / 8 ≠ 0 := fun h0 =>
      hhigh (BitVec.eq_of_toNat_eq ((header_high_toNat header).trans h0))
    exact decodeHeader_reserved (by omega) args
  · rw [header_eq_of_fields hhigh hop]; rfl
  · rw [header_eq_of_fields hhigh hop]; rfl
  · rw [header_eq_of_fields hhigh hop]; rfl
  · rw [header_eq_of_fields hhigh hop]; rfl
  · rw [header_eq_of_fields hhigh hop]; rfl
  · rw [← header_toNat_of_high_zero hhigh] at hop
    exact decodeHeader_reserved hop args

/-! ### Acknowledgement bytes, raw-byte commands and words of the table (R73, R74) -/

theorem decodeAck_of_ne {a : Byte} (h : a ≠ Config.ack) : decodeAck a = .notAck a := by
  simp [decodeAck, isAck, h]

/-- The terminator is found behind any codes, codes of value zero among them. -/
theorem stringCodes?_append_terminator (codes : List ByteOperand) :
    stringCodes? (codes ++ [.lit 0x00]) = some codes := by
  induction codes with
  | nil => rfl
  | cons b codes ih =>
    obtain ⟨c, rest, hrest⟩ : ∃ c rest, codes ++ [.lit 0x00] = c :: rest :=
      List.exists_cons_of_ne_nil (by simp)
    rw [hrest] at ih
    rw [List.cons_append, hrest, stringCodes?, ih, Option.map_some]

theorem decodeRaw_string (codes : List ByteOperand) :
    decodeRaw (.lit 0x00 :: .lit 0x18 :: (codes ++ [.lit 0x00])) = .putString codes := by
  simp [decodeRaw, stringCodes?_append_terminator]

/-- Settles O2, by the row: a reserved header is at least 5, a NOT_ACK byte is not the ACK, and the string row's
codes are found before their terminator; the other rows decode by computation. -/
theorem decodeInvertsEncode : Obligations.DecodeInvertsEncode := by
  intro i hwf
  cases i with
  | reservedHostop header => exact decodeHeader_reserved (of_decide_eq_true hwf) {}
  | notAck a => exact decodeAck_of_ne (of_decide_eq_true hwf)
  | putString codes => exact decodeRaw_string codes
  | _ => rfl

/-- Settles O3: both rows of the acknowledgement byte keep it, the ACK row as the constant. -/
theorem wireBytesReencode : Obligations.WireBytesReencode := by
  refine ⟨fun a => ?_, fun h l => rfl⟩
  by_cases ha : a = Config.ack
  · rw [ha]; rfl
  · rw [decodeAck_of_ne ha, encode]

/-- Settles O4: the decoder computes each of the ten. -/
theorem tableWordsDecode : Obligations.TableWordsDecode :=
  ⟨rfl, rfl, rfl, rfl, rfl, rfl, rfl, rfl, rfl, rfl⟩

/-! ### Values of well-formed operands (R86) -/

theorem givesWord_iff {i : Instr} : i.givesWord = true ↔ ∃ hi lo, i = .decodeWord hi lo := by
  cases i <;> simp [Instr.givesWord]

theorem givesByte_iff {j : Nat} {i : Instr} :
    i.givesByte j = true ↔ (∃ v, i = .encodeWord v ∧ j < 2) ∨
      ∃ n, i = .awaitAck n ∧ 1 ≤ n ∧ (j : Int) < n := by
  cases i <;> simp [Instr.givesByte]

/-- A reference that passes WF_REF names a completed operation of the kind asked for, whose result has its form. -/
theorem HostInv.referenced {s : State} (h : HostInv s) {k : Nat} {gives : Instr → Bool}
    (href : (decide (k < s.hpc) && s.program[k]?.any gives) = true) :
    k < s.hpc ∧ ∃ i r, s.program[k]? = some i ∧ gives i = true ∧ s.results[k]? = some r ∧ ResultFits i r := by
  obtain ⟨hk, hgives⟩ := Bool.and_eq_true_iff.mp href
  have hk : k < s.hpc := of_decide_eq_true hk
  obtain ⟨i, r, hop, hr, hfits⟩ := h.results_fit k hk
  rw [hop, Option.any_some] at hgives
  exact ⟨hk, i, r, hop, hgives, hr, hfits⟩

theorem HostInv.wordGives_exists {s : State} (h : HostInv s) {v : WordOperand} (hrange : v.inRange = true)
    (href : v.refWf s.program s.hpc = true) : ∃ w, WordGives s v w := by
  cases v with
  | lit x =>
    obtain ⟨h0, h1⟩ : 0 ≤ x ∧ x ≤ 65535 := by simpa [WordOperand.inRange] using hrange
    exact ⟨BitVec.ofInt 16 x, h0, h1, by rw [BitVec.toNat_ofInt]; omega⟩
  | ref k =>
    obtain ⟨hk, i, r, hop, hgives, hr, hfits⟩ := h.referenced href
    obtain ⟨hi, lo, rfl⟩ := givesWord_iff.mp hgives
    obtain ⟨w, rfl⟩ := hfits
    exact ⟨w, hk, ⟨hi, lo, hop⟩, hr⟩

theorem HostInv.byteGives_exists {s : State} (h : HostInv s) {v : ByteOperand} (hrange : v.inRange = true)
    (href : v.refWf s.program s.hpc = true) : ∃ b, ByteGives s v b := by
  cases v with
  | lit x =>
    obtain ⟨h0, h1⟩ : 0 ≤ x ∧ x ≤ 255 := by simpa [ByteOperand.inRange] using hrange
    exact ⟨BitVec.ofInt 8 x, h0, h1, by rw [BitVec.toNat_ofInt]; omega⟩
  | ref k j =>
    obtain ⟨hk, i, r, hop, hgives, hr, hfits⟩ := h.referenced href
    obtain ⟨v, rfl, hj⟩ | ⟨n, rfl, hn, hj⟩ := givesByte_iff.mp hgives
    · obtain ⟨hi, lo, rfl⟩ := hfits
      obtain rfl | rfl : j = 0 ∨ j = 1 := by omega
      · exact ⟨hi, hk, .inr ⟨v, hi, lo, hop, hr, .inl ⟨rfl, rfl⟩⟩⟩
      · exact ⟨lo, hk, .inr ⟨v, hi, lo, hop, hr, .inr ⟨rfl, rfl⟩⟩⟩
    · obtain ⟨hzero, _⟩ | ⟨_, bs, rfl, hlen⟩ := hfits
      · omega
      · have hlt : j < bs.length := by omega
        exact ⟨bs[j], hk, .inl ⟨n, bs, hop, hn, hj, hr, List.getElem?_eq_getElem hlt⟩⟩

/-- Settles O15: the operation a reference names has completed with a result of its form. -/
theorem wellFormedOperandsHaveValues : Obligations.WellFormedOperandsHaveValues := fun _ h =>
  ⟨fun _ hrange href => h.wordGives_exists hrange href, fun _ hrange href => h.byteGives_exists hrange href⟩

/-! ### The operands of an instruction and the checks of R81 -/

/-- The Word operands of an instruction, in operand order. -/
def Instr.wordOperands : Instr → List WordOperand
  | .encodeWord v => [v]
  | .decodeWord _ _ => []
  | .sendWords ws => ws
  | .sendRaw _ => []
  | .awaitAck _ => []
  | .reservedHostop _ => []
  | .wordFrame _ _ => []
  | .ackAccepted => []
  | .notAck _ => []
  | .putString _ => []

/-- The Byte operands of an instruction, in operand order. -/
def Instr.byteOperands : Instr → List ByteOperand
  | .encodeWord _ => []
  | .decodeWord hi lo => [hi, lo]
  | .sendWords _ => []
  | .sendRaw bs => bs
  | .awaitAck _ => []
  | .reservedHostop _ => []
  | .wordFrame _ _ => []
  | .ackAccepted => []
  | .notAck _ => []
  | .putString codes => codes

/-- Whether some operand of the operation at `H.hpc` is a bad reference. -/
def Instr.hasBadRef (s : State) (i : Instr) : Bool :=
  (Instr.wordOperands i).any (wordBadRef s) || (Instr.byteOperands i).any (byteBadRef s)

/-- WF_REF of an instruction is WF_REF of its operands. -/
theorem refsWf_eq (prog : List Instr) (k : Nat) (i : Instr) :
    i.refsWf prog k = ((Instr.wordOperands i).all (WordOperand.refWf prog k) &&
      (Instr.byteOperands i).all (ByteOperand.refWf prog k)) := by
  cases i <;> simp [Instr.refsWf, Instr.wordOperands, Instr.byteOperands]

theorem wordBadRef_of_refWf_false {s : State} {v : WordOperand} (h : v.refWf s.program s.hpc = false) :
    wordBadRef s v = true := by
  cases v with
  | lit x => exact nomatch h
  | ref k => simp [wordBadRef, h]

theorem byteBadRef_of_refWf_false {s : State} {v : ByteOperand} (h : v.refWf s.program s.hpc = false) :
    byteBadRef s v = true := by
  cases v with
  | lit x => exact nomatch h
  | ref k j => simp [byteBadRef, h]

/-- Under the host's bookkeeping a reference that passes WF_REF has its result (assumption 14). -/
theorem HostInv.wordBadRef_eq_false {s : State} (h : HostInv s) {v : WordOperand}
    (href : v.refWf s.program s.hpc = true) : wordBadRef s v = false := by
  cases v with
  | lit x => rfl
  | ref k =>
    obtain ⟨w, hw⟩ := h.wordGives_exists rfl href
    obtain ⟨_, hbad, _⟩ := wordGives_spec hw
    exact hbad

/-- Under the host's bookkeeping a reference that passes WF_REF has its result (assumption 14). -/
theorem HostInv.byteBadRef_eq_false {s : State} (h : HostInv s) {v : ByteOperand}
    (href : v.refWf s.program s.hpc = true) : byteBadRef s v = false := by
  cases v with
  | lit x => rfl
  | ref k j =>
    obtain ⟨b, hb⟩ := h.byteGives_exists rfl href
    obtain ⟨_, hbad, _⟩ := byteGives_spec hb
    exact hbad

theorem hasBadRef_of_refsWf_false {s : State} {i : Instr} (h : i.refsWf s.program s.hpc = false) :
    Instr.hasBadRef s i = true := by
  rw [refsWf_eq, Bool.and_eq_false_iff, List.all_eq_false, List.all_eq_false] at h
  rw [Instr.hasBadRef, Bool.or_eq_true, List.any_eq_true, List.any_eq_true]
  obtain ⟨v, hv, href⟩ | ⟨v, hv, href⟩ := h
  · exact .inl ⟨v, hv, wordBadRef_of_refWf_false (Bool.eq_false_iff.mpr href)⟩
  · exact .inr ⟨v, hv, byteBadRef_of_refWf_false (Bool.eq_false_iff.mpr href)⟩

theorem HostInv.hasBadRef_eq_false {s : State} (hinv : HostInv s) {i : Instr}
    (h : i.refsWf s.program s.hpc = true) : Instr.hasBadRef s i = false := by
  rw [refsWf_eq, Bool.and_eq_true, List.all_eq_true, List.all_eq_true] at h
  rw [Instr.hasBadRef, Bool.or_eq_false_iff, List.any_eq_false, List.any_eq_false]
  obtain ⟨hwords, hbytes⟩ := h
  exact ⟨fun v hv => Bool.eq_false_iff.mp (hinv.wordBadRef_eq_false (hwords v hv)),
    fun v hv => Bool.eq_false_iff.mp (hinv.byteBadRef_eq_false (hbytes v hv))⟩

theorem badWordLiteral?_eq_none {v : WordOperand} : badWordLiteral? v = none ↔ v.inRange = true := by
  cases v with
  | lit x => simp [badWordLiteral?]
  | ref k => exact iff_of_true rfl rfl

theorem badByteLiteral?_eq_none {v : ByteOperand} : badByteLiteral? v = none ↔ v.inRange = true := by
  cases v with
  | lit x => simp [badByteLiteral?]
  | ref k j => exact iff_of_true rfl rfl

theorem badWordLiterals_eq_nil {ws : List WordOperand} :
    ws.filterMap badWordLiteral? = [] ↔ ws.all WordOperand.inRange = true := by
  simp only [List.filterMap_eq_nil_iff, List.all_eq_true, badWordLiteral?_eq_none]

theorem badByteLiterals_eq_nil {bs : List ByteOperand} :
    bs.filterMap badByteLiteral? = [] ↔ bs.all ByteOperand.inRange = true := by
  simp only [List.filterMap_eq_nil_iff, List.all_eq_true, badByteLiteral?_eq_none]

/-- The range checks of a checked instruction pass exactly when no value is out of range. -/
theorem badLiterals_eq_nil {i : Instr} (hc : Instr.isChecked i = true) : badLiterals i = [] ↔ i.wf = true := by
  cases i with
  | encodeWord v => exact (badWordLiterals_eq_nil (ws := [v])).trans (by simp [Instr.wf])
  | decodeWord hi lo => exact (badByteLiterals_eq_nil (bs := [hi, lo])).trans (by simp [Instr.wf])
  | sendWords ws => exact badWordLiterals_eq_nil
  | sendRaw bs => exact badByteLiterals_eq_nil
  | awaitAck n => simp [badLiterals, Instr.wf]
  | putString codes => exact badByteLiterals_eq_nil
  | _ => exact nomatch hc

theorem badLiterals_ne_nil {i : Instr} (hc : Instr.isChecked i = true) (hwf : i.wf = false) : badLiterals i ≠ [] :=
  fun h => Bool.eq_false_iff.mp hwf ((badLiterals_eq_nil hc).mp h)

/-! ### Refusals (R81, R177, R178) -/

theorem wordOutOfRange_eq (v : WordOperand) : wordOutOfRange v = (badWordLiteral? v).toList := by
  cases v with
  | lit x => simp [wordOutOfRange, badWordLiteral?, WordOperand.inRange, apply_ite Option.toList]
  | ref k => rfl

theorem byteOutOfRange_eq (v : ByteOperand) : byteOutOfRange v = (badByteLiteral? v).toList := by
  cases v with
  | lit x => simp [byteOutOfRange, badByteLiteral?, ByteOperand.inRange, apply_ite Option.toList]
  | ref k j => rfl

theorem refusalOfWords_eq (s : State) (ws : List WordOperand) :
    refusalOfWords s ws = refusalOf s.hpc (ws.filterMap badWordLiteral?) (ws.any (wordBadRef s)) := by
  rw [refusalOfWords, List.filterMap_eq_flatMap_toList, funext wordOutOfRange_eq]

theorem refusalOfBytes_eq (s : State) (bs : List ByteOperand) :
    refusalOfBytes s bs = refusalOf s.hpc (bs.filterMap badByteLiteral?) (bs.any (byteBadRef s)) := by
  rw [refusalOfBytes, List.filterMap_eq_flatMap_toList, funext byteOutOfRange_eq]

theorem refusalOfCount_eq (s : State) (n : Int) :
    refusalOfCount s n = refusalOf s.hpc (badLiterals (.awaitAck n)) false := by
  rw [refusalOfCount, countOutOfRange, badLiterals, ← ite_not]
  simp only [not_le]

theorem refusalOf_encodingError {hpc : Nat} {values : List Int} (h : values ≠ []) :
    refusalOf hpc values false = some (.encodingError values) := by
  simp [refusalOf, h]

/-- Both reasons apply: the free value of assumption 5 takes one of them. -/
theorem refusalOf_both {hpc : Nat} {values : List Int} (h : values ≠ []) :
    ∃ r, (r = .badRef ∨ r = .encodingError values) ∧ refusalOf hpc values true = some r := by
  rw [refusalOf, if_neg h]
  split
  · exact ⟨.badRef, .inl rfl, rfl⟩
  · exact ⟨.encodingError values, .inr rfl, rfl⟩

/-- A string within STRING_MAX is issued after the checks of R81 as the SEND_RAW of its bytes (R92). -/
theorem exec_putString_of_le {codes : List ByteOperand} (h : codes.length ≤ 511) (s : State) :
    exec (.putString codes) s = s.issue (refusalOfBytes s codes)
      (s.startTx (.sendRaw (stringImage (byteValues s codes))) (stringImage (byteValues s codes))) :=
  if_neg (not_lt.mpr h)

/-- A string longer than STRING_MAX is reported in place of its issue, before the checks of R81 (R92, R173). -/
theorem exec_putString_of_lt {codes : List ByteOperand} (h : 511 < codes.length) (s : State) :
    exec (.putString codes) s = s.issue none (s.hostError .validation) :=
  if_pos h

/-- A checked instruction is issued with the refusal of its values out of range and its bad references (R81, R177). -/
theorem exec_eq_issue_refusalOf {i : Instr} (hc : Instr.isChecked i = true) (s : State) :
    ∃ body, exec i s = s.issue (refusalOf s.hpc (badLiterals i) (Instr.hasBadRef s i)) body := by
  suffices h : ∃ refusal body, exec i s = s.issue refusal body ∧
      refusal = refusalOf s.hpc (badLiterals i) (Instr.hasBadRef s i) by
    obtain ⟨_, body, hexec, rfl⟩ := h
    exact ⟨body, hexec⟩
  unfold Instr.hasBadRef
  cases i with
  | encodeWord v => exact ⟨_, _, rfl,
      by rw [refusalOfWords_eq, Instr.wordOperands, Instr.byteOperands, List.any_nil, Bool.or_false, badLiterals]⟩
  | decodeWord hi lo => exact ⟨_, _, rfl, refusalOfBytes_eq s [hi, lo]⟩
  | sendWords ws => exact ⟨_, _, rfl,
      by rw [refusalOfWords_eq, Instr.wordOperands, Instr.byteOperands, List.any_nil, Bool.or_false, badLiterals]⟩
  | sendRaw bs => exact ⟨_, _, rfl, refusalOfBytes_eq s bs⟩
  | awaitAck n => exact ⟨_, _, rfl, refusalOfCount_eq s n⟩
  | putString codes => exact ⟨_, _, exec_putString_of_le (of_decide_eq_true hc) s, refusalOfBytes_eq s codes⟩
  | _ => exact nomatch hc

/-- A check that fails stands in place of the issue: its reason is recorded, and nothing else changes. -/
theorem exec_refused {s : State} {i : Instr} (hready : s.HostReady) (hc : Instr.isChecked i = true)
    {r : RefusalReason} (h : refusalOf s.hpc (badLiterals i) (Instr.hasBadRef s i) = some r) :
    exec i s = .next { s with refused := some r } := by
  obtain ⟨body, hexec⟩ := exec_eq_issue_refusalOf hc s
  rw [hexec, h]
  exact State.issue_refused hready r body

/-- Settles O11: the bookkeeping leaves the range checks alone to fail. -/
theorem outOfRangeOperandIsRefused : Obligations.OutOfRangeOperandIsRefused := by
  intro s i hready hinv hc hwf href
  have hvalues := badLiterals_ne_nil hc hwf
  refine ⟨hvalues, exec_refused hready hc ?_⟩
  rw [hinv.hasBadRef_eq_false href]
  exact refusalOf_encodingError hvalues

/-- Settles O12: no value is out of range, so the bad reference is the reason. -/
theorem badReferenceIsRefused : Obligations.BadReferenceIsRefused := by
  intro s i hready hc hwf href
  refine exec_refused hready hc ?_
  rw [(badLiterals_eq_nil hc).mpr hwf, hasBadRef_of_refsWf_false href]
  rfl

/-- Settles O13, for either value of `Config.badRefFirst`. -/
theorem bothChecksFailingIsRefused : Obligations.BothChecksFailingIsRefused := by
  intro s i hready hc hwf href
  obtain ⟨r, hr, hrefusal⟩ := refusalOf_both (hpc := s.hpc) (badLiterals_ne_nil hc hwf)
  refine ⟨r, hr, exec_refused hready hc ?_⟩
  rw [hasBadRef_of_refsWf_false href]
  exact hrefusal

/-- Settles O14: the refusal does not look at the header. -/
theorem reservedHeaderIsRefused : Obligations.ReservedHeaderIsRefused :=
  fun s _ hready => State.issue_refused hready .reservedSelector s

/-! ### The issue of a Word frame and of the string-output command (R71, R92) -/

/-- Settles O18: two bytes are a whole command, within the bound. -/
theorem wordFrameStarts : Obligations.WordFrameStarts := by
  intro s h l hready hack hfits
  refine ⟨joinBytes h l, joinBytes_toNat h l, (State.issue_accepted hready _).trans ?_⟩
  rw [State.startTx_accepted (image := [h, l]) hack le_rfl hfits]
  rfl

theorem stringImage_length (codes : List Byte) : (stringImage codes).length = codes.length + 3 := by
  simp [stringImage]

/-- Settles O19: codes that have values pass the checks, and the image with its three fixed bytes is long enough. -/
theorem putStringStarts : Obligations.PutStringStarts := by
  intro s vs codes hready hgive hack hlen hfits
  obtain ⟨hrefusal, hvalues⟩ := bytesGive_spec hgive
  have hfits : FitsCommand s.params (stringImage codes).length := by rwa [stringImage_length]
  rw [exec_putString_of_le hlen, hrefusal, hvalues, State.issue_accepted hready,
    State.startTx_accepted hack (by rw [stringImage_length]; omega) hfits]
  rfl

/-- Settles O20: the length check comes before the others and before `StartTX`. -/
theorem longStringSendsNothing : Obligations.LongStringSendsNothing := by
  intro s vs hready hlen
  rw [exec_putString_of_lt hlen, State.issue_accepted hready]
  rfl

/-! ### The façade's expansions (R92, R93, R95) -/

theorem wordsGive_map_litWord (s : State) (ws : List Word) : WordsGive s (ws.map litWord) ws := by
  refine List.forall₂_map_left_iff.mpr (List.forall₂_same.mpr fun w _ => ?_)
  have := w.isLt
  exact ⟨by omega, by omega, rfl⟩

theorem bytesGive_map_litByte (s : State) (bs : List Byte) : BytesGive s (bs.map litByte) bs := by
  refine List.forall₂_map_left_iff.mpr (List.forall₂_same.mpr fun b _ => ?_)
  have := b.isLt
  exact ⟨by omega, by omega, rfl⟩

/-- Settles O53: the operands are the command's Words as literals, the count among them. -/
theorem polylineLayout : Obligations.PolylineLayout := by
  intro c xs ys color variant
  refine ⟨fun heq hle s => ?_, fun hne => if_neg hne⟩
  have hcount : (BitVec.ofNat 16 xs.length).toNat = xs.length := by
    rw [BitVec.toNat_ofNat]
    omega
  refine ⟨([c.opcPoly variant, BitVec.ofNat 16 xs.length] ++ xs ++ ys ++ [color]).map litWord, _, hcount, ?_,
    wordsGive_map_litWord s _⟩
  have hcountLit : litWord (BitVec.ofNat 16 xs.length) = .lit (xs.length : Int) := by rw [litWord, hcount]
  rw [poly, if_pos heq, cmd]
  simp only [List.cons_append, List.nil_append, List.map_cons, List.map_append, List.map_nil, hcountLit]

/-- Settles O54: the operands are the string's bytes as literals; both checks compare lengths. -/
theorem putStringExpansion : Obligations.PutStringExpansion := by
  intro c text i
  refine ⟨fun hle s => ⟨(putStringBytes c text).map litByte, if_neg (not_lt.mpr hle), bytesGive_map_litByte s _⟩,
    fun hlt => if_pos hlt, fun w => ⟨fun hok => ?_, fun heq => if_pos heq⟩, fun w hne => if_neg hne⟩
  by_contra hne
  rw [putStringCheck, if_neg hne] at hok
  exact nomatch hok

theorem DisplayState.afterSet_zero (d : DisplayState) : d.afterSet 0 = d := if_pos rfl

theorem DisplayState.afterSet_of_ne_zero (d : DisplayState) {v : Word} (h : v ≠ 0) :
    d.afterSet v = { contrast := v } := if_neg h

/-- Settles O55: a set to zero leaves the cached contrast. -/
theorem contrastSurvivesOff : Obligations.ContrastSurvivesOff := by
  intro c d v i hv
  rw [DisplayState.afterSet_zero, d.afterSet_of_ne_zero hv]
  rfl

end Sys2Proof.Machine
end

section
/-! PROOFS. The statements of 40_word_codec.md: the completion of both operations (R100, R101), the reassembly of a
response (R102), and the round trip (R103). -/

namespace Sys2Proof.Machine

/-! ### Completion (R100, R101) -/

/-- ENCODE_WORD of an operand that has a value completes with the two bytes of that Word. -/
theorem exec_encodeWord {s : State} {v : WordOperand} {w : Word} (hready : s.HostReady) (hv : WordGives s v w) :
    exec (.encodeWord v) s = .next (s.complete (.pair (hiByte w) (loByte w))) := by
  obtain ⟨hrefusal, -⟩ := wordsGive_spec (.cons hv .nil)
  obtain ⟨-, -, hvalue⟩ := wordGives_spec hv
  rw [exec, execEncodeWord, hrefusal, hvalue, State.issue_accepted hready]

/-- DECODE_WORD of operands that have values completes with the join of those bytes. -/
theorem exec_decodeWord {s : State} {vh vl : ByteOperand} {hi lo : Byte} (hready : s.HostReady)
    (hh : ByteGives s vh hi) (hl : ByteGives s vl lo) :
    exec (.decodeWord vh vl) s = .next (s.complete (.val (joinBytes hi lo))) := by
  obtain ⟨hrefusal, -⟩ := bytesGive_spec (.cons hh (.cons hl .nil))
  obtain ⟨-, -, hhi⟩ := byteGives_spec hh
  obtain ⟨-, -, hlo⟩ := byteGives_spec hl
  rw [exec, execDecodeWord, hrefusal, hhi, hlo, State.issue_accepted hready]

/-- Settles O6: the two halves of a Word are its quotient and its remainder by 256. -/
theorem encodeWordCompletes : Obligations.EncodeWordCompletes :=
  fun _ _ w hready hv => ⟨hiByte w, loByte w, hiByte_toNat w, loByte_toNat w, exec_encodeWord hready hv⟩

/-- Settles O7: the join of two bytes has the value `hi * 256 + lo`, which a Word holds. -/
theorem decodeWordCompletes : Obligations.DecodeWordCompletes :=
  fun _ _ _ hi lo hready hh hl => ⟨joinBytes hi lo, joinBytes_toNat hi lo, exec_decodeWord hready hh hl⟩

/-! ### The round trip (R103) -/

theorem wordGives_litWord (s : State) (w : Word) : WordGives s (litWord w) w :=
  (List.forall₂_cons.mp (wordsGive_map_litWord s [w])).1

theorem byteGives_litByte (s : State) (b : Byte) : ByteGives s (litByte b) b :=
  (List.forall₂_cons.mp (bytesGive_map_litByte s [b])).1

/-- An integer from 0 to 65535 is the literal of a Word. -/
theorem exists_litWord {v : Int} (h0 : 0 ≤ v) (h1 : v ≤ 65535) :
    ∃ w : Word, litWord w = .lit v ∧ (w.toNat : Int) = v := by
  have hv : ((BitVec.ofInt 16 v).toNat : Int) = v := by
    rw [BitVec.toNat_ofInt]
    omega
  exact ⟨BitVec.ofInt 16 v, congrArg WordOperand.lit hv, hv⟩

theorem exec_encodeWord_litWord {s : State} (hready : s.HostReady) (w : Word) :
    exec (.encodeWord (litWord w)) s = .next (s.complete (.pair (hiByte w) (loByte w))) :=
  exec_encodeWord hready (wordGives_litWord s w)

theorem exec_decodeWord_litByte {s : State} (hready : s.HostReady) (hi lo : Byte) :
    exec (.decodeWord (litByte hi) (litByte lo)) s = .next (s.complete (.val (joinBytes hi lo))) :=
  exec_decodeWord hready (byteGives_litByte s hi) (byteGives_litByte s lo)

/-- The result of an instruction known to complete with `r` is `r`. -/
theorem result_of_exec_complete {i : Instr} {s t : State} {r r' : Result}
    (hcomplete : exec i s = .next (s.complete r)) (h : exec i s = .next t) (hres : t.result = some r') : r = r' := by
  rw [hcomplete] at h
  cases h
  exact Option.some.inj hres

theorem join_leftInverse_split :
    Function.LeftInverse (fun p : Byte × Byte => joinBytes p.1 p.2) (fun w : Word => (hiByte w, loByte w)) :=
  joinBytes_hiByte_loByte

theorem split_leftInverse_join :
    Function.LeftInverse (fun w : Word => (hiByte w, loByte w)) (fun p : Byte × Byte => joinBytes p.1 p.2) :=
  fun p => Prod.ext (hiByte_joinBytes p.1 p.2) (loByte_joinBytes p.1 p.2)

/-- Settles O8: each operation's result fixes its operands, since split and join are inverse to each other. -/
theorem codecRoundTrip : Obligations.CodecRoundTrip := by
  refine ⟨fun v s t hi lo h0 h1 hready hexec hres s' hready' => ?_,
    fun hi lo s t w hready hexec hres s' hready' => ?_,
    ⟨join_leftInverse_split.injective, split_leftInverse_join.surjective⟩,
    ⟨split_leftInverse_join.injective, join_leftInverse_split.surjective⟩⟩
  · obtain ⟨w, hlit, hw⟩ := exists_litWord h0 h1
    rw [← hlit] at hexec
    cases result_of_exec_complete (exec_encodeWord_litWord hready w) hexec hres
    have hdecode := exec_decodeWord_litByte hready' (hiByte w) (loByte w)
    rw [joinBytes_hiByte_loByte] at hdecode
    exact ⟨_, w, hdecode, rfl, hw⟩
  · cases result_of_exec_complete (exec_decodeWord_litByte hready hi lo) hexec hres
    have hencode := exec_encodeWord_litWord hready' (joinBytes hi lo)
    rw [hiByte_joinBytes, loByte_joinBytes] at hencode
    exact ⟨_, hencode, rfl⟩

/-! ### Response reassembly (R102) -/

/-- A byte list of even length is the image of a list of Words. -/
theorem exists_wordImage_eq {bs : List Byte} (h : bs.length % 2 = 0) : ∃ ws, wordImage ws = bs := by
  induction bs using List.twoStepInduction with
  | nil => exact ⟨[], rfl⟩
  | singleton b => exact nomatch h
  | cons_cons b c rest ih _ =>
    obtain ⟨ws, rfl⟩ := ih ((Nat.add_mod_right rest.length 2).symm.trans h)
    exact ⟨joinBytes b c :: ws, by rw [wordImage, hiByte_joinBytes, loByte_joinBytes]⟩

theorem wordsOf_of_odd {bs : List Byte} (h : bs.length % 2 = 1) : wordsOf bs = .error .oddPayload := by
  induction bs using List.twoStepInduction with
  | nil => exact nomatch h
  | singleton b => rfl
  | cons_cons b c rest ih _ => rw [wordsOf, ih ((Nat.add_mod_right rest.length 2).symm.trans h)]

/-- Settles O9: a list of even length is the image of the Words it is reassembled into; the odd byte ends the
recursion with the refusal. -/
theorem wordsOfReassembles : Obligations.WordsOfReassembles := by
  refine fun bs => ⟨fun heven => ?_, wordsOf_of_odd⟩
  obtain ⟨ws, rfl⟩ := exists_wordImage_eq heven
  refine ⟨ws, wordsOf_wordImage ws, (wordImage_length ws).symm, fun j h l hh hl => ?_⟩
  rw [wordImage_getElem?_even] at hh
  rw [wordImage_getElem?_odd] at hl
  obtain ⟨w, hw, rfl⟩ := Option.map_eq_some_iff.mp hh
  rw [hw] at hl
  cases hl
  exact ⟨w, hw, by rw [← joinBytes_toNat, joinBytes_hiByte_loByte]⟩

end Sys2Proof.Machine
end

section
/-! PROOFS. The statements of 41_transmit.md: the issue of a command (R120 to R124), the TX step for every answer of
the channel (R125, R126), and the run of a command to its end (R127). -/

namespace Sys2Proof.Machine

/-! ### The issue of a command (R120, R121, R124) -/

/-- SEND_WORDS of operands that have values is the `StartTX` of those Words' image. -/
theorem exec_sendWords {s : State} {vs : List WordOperand} {ws : List Word} (hready : s.HostReady)
    (hgive : WordsGive s vs ws) : exec (.sendWords vs) s = .next (s.startTx (.sendWords ws) (wordImage ws)) := by
  obtain ⟨hrefusal, hvalues⟩ := wordsGive_spec hgive
  rw [exec, execSendWords, hrefusal, hvalues, State.issue_accepted hready]

/-- SEND_RAW of operands that have values is the `StartTX` of those bytes. -/
theorem exec_sendRaw {s : State} {vs : List ByteOperand} {bs : List Byte} (hready : s.HostReady)
    (hgive : BytesGive s vs bs) : exec (.sendRaw vs) s = .next (s.startTx (.sendRaw bs) bs) := by
  obtain ⟨hrefusal, hvalues⟩ := bytesGive_spec hgive
  rw [exec, execSendRaw, hrefusal, hvalues, State.issue_accepted hready]

/-- A Word frame is the `StartTX` of its two bytes. -/
theorem exec_wordFrame {s : State} (hready : s.HostReady) (h l : Byte) :
    exec (.wordFrame h l) s = .next (s.startTx (.sendWords [joinBytes h l]) [h, l]) :=
  State.issue_accepted hready _

/-- A string within STRING_MAX, of operands that have values, is the `StartTX` of its bytes. -/
theorem exec_putString {s : State} {vs : List ByteOperand} {codes : List Byte} (hready : s.HostReady)
    (hgive : BytesGive s vs codes) (hlen : vs.length ≤ 511) :
    exec (.putString vs) s = .next (s.startTx (.sendRaw (stringImage codes)) (stringImage codes)) := by
  obtain ⟨hrefusal, hvalues⟩ := bytesGive_spec hgive
  rw [exec_putString_of_le hlen, hrefusal, hvalues, State.issue_accepted hready]

/-- The image of a command as bit fields of its Words (R72, R120). -/
theorem wordImage_eq_flatMap (ws : List Word) :
    wordImage ws = ws.flatMap fun w => [w.extractLsb' 8 8, w.extractLsb' 0 8] := by
  induction ws with
  | nil => rfl
  | cons w ws ih => rw [wordImage, ih]; rfl

/-- Settles O16: the image of a non-empty list of Words holds at least one Word's two bytes. -/
theorem sendWordsStarts : Obligations.SendWordsStarts := by
  intro s vs ws hready hgive hack hne hfits
  have hlen : 2 ≤ (wordImage ws).length := by
    have := List.length_pos_iff.mpr hne
    rw [wordImage_length]
    omega
  have hfits : FitsCommand s.params (wordImage ws).length := by rwa [wordImage_length]
  rw [exec_sendWords hready hgive, State.startTx_accepted hack hlen hfits, ← wordImage_eq_flatMap]
  rfl

/-- Settles O17: the image is the list itself. -/
theorem sendRawStarts : Obligations.SendRawStarts := by
  intro s vs bs hready hgive hack hlen hfits
  rw [exec_sendRaw hready hgive, State.startTx_accepted hack hlen hfits]
  rfl

/-! ### The faults of an issue, in order (R122, R123, R124) -/

/-- The first fault is the one recorded (R176). -/
theorem State.recordFault_of_none {s : State} (hf : s.fault = none) (f : ModelFault) :
    s.recordFault f = { s with fault := some f } := by
  rw [State.recordFault, hf, Option.getD_none]

section Faults

variable {s : State} {o : HostOp} {image : List Byte}

theorem State.startTx_outstanding (ha : s.ackPending = true) : s.startTx o image = s.recordFault .seqSend :=
  if_pos ha

theorem State.startTx_short (ha : s.ackPending = false) (hl : image.length < 2) :
    s.startTx o image = s.recordFault .malformedCommand := by
  rw [State.startTx, if_neg (by simp [ha]), if_pos hl]

theorem State.startTx_tooLong (ha : s.ackPending = false) (hl : 2 ≤ image.length)
    (hm : ¬ FitsCommand s.params image.length) : s.startTx o image = s.recordFault .commandTooLong := by
  have htoo : imageTooLong s.params image.length = true := by
    rwa [← imageTooLong_eq_false, Bool.not_eq_false] at hm
  rw [State.startTx, if_neg (by simp [ha]), if_neg (by omega), if_pos htoo]

/-- An instruction that is the `StartTX` of an image records the first of its faults that applies. -/
theorem exec_faults_of_startTx {i : Instr} (hready : s.HostReady) (hexec : exec i s = .next (s.startTx o image)) :
    (s.ackPending = true → exec i s = .next { s with fault := some .seqSend }) ∧
      (s.ackPending = false → image.length < 2 → exec i s = .next { s with fault := some .malformedCommand }) ∧
      (s.ackPending = false → 2 ≤ image.length → ¬ FitsCommand s.params image.length →
        exec i s = .next { s with fault := some .commandTooLong }) := by
  have hrecord := State.recordFault_of_none hready.unstopped.1
  refine ⟨fun ha => ?_, fun ha hl => ?_, fun ha hl hm => ?_⟩
  · rw [hexec, State.startTx_outstanding ha, hrecord]
  · rw [hexec, State.startTx_short ha hl, hrecord]
  · rw [hexec, State.startTx_tooLong ha hl hm, hrecord]

end Faults

/-- Settles O21: either operation is the `StartTX` of its image. -/
theorem sendFaultsInOrder : Obligations.SendFaultsInOrder := by
  rintro s i image hready (⟨vs, ws, rfl, hgive, rfl⟩ | ⟨vs, rfl, hgive⟩)
  · exact exec_faults_of_startTx hready (exec_sendWords hready hgive)
  · exact exec_faults_of_startTx hready (exec_sendRaw hready hgive)

/-- Settles O22: either row is the `StartTX` of its image, which is never short. -/
theorem frameAndStringFaultsInOrder : Obligations.FrameAndStringFaultsInOrder := by
  rintro s i image hready (⟨h, l, rfl, rfl⟩ | ⟨vs, codes, rfl, hlen, hgive, rfl⟩)
  · obtain ⟨hseq, -, hlong⟩ := exec_faults_of_startTx hready (exec_wordFrame hready h l)
    exact ⟨hseq, fun ha => hlong ha le_rfl⟩
  · obtain ⟨hseq, -, hlong⟩ := exec_faults_of_startTx hready (exec_putString hready hgive hlen)
    exact ⟨hseq, fun ha => hlong ha (by rw [stringImage_length]; omega)⟩

/-! ### The TX step (R125, R126) -/

/-- The channel has taken the bytes `taken` of a command: `rest` of it is left, and the answers `answers`. -/
def State.txAdvanced (taken rest : List Byte) (answers : List TxAnswer) (s : State) : State :=
  { s with
    txAnswers := answers
    txLog := s.txLog ++ taken
    txq := rest
    txSent := s.txSent + taken.length }

theorem State.txAdvanced_nil {s : State} {rest : List Byte} {answers : List TxAnswer} (hq : s.txq = rest)
    (ha : s.txAnswers = answers) : s.txAdvanced [] rest answers = s := by
  rw [State.txAdvanced, List.append_nil, ← hq, ← ha]
  rfl

theorem State.txAdvanced_txAdvanced (s : State) (xs ys mid rest : List Byte) (as bs : List TxAnswer) :
    (s.txAdvanced xs mid as).txAdvanced ys rest bs = s.txAdvanced (xs ++ ys) rest bs := by
  simp [State.txAdvanced, Nat.add_assoc]

/-- A command's last byte is taken: it completes with `Sent`, and its acknowledgement is outstanding (R125). -/
def State.txCompleted (taken : List Byte) (answers : List TxAnswer) (s : State) : State :=
  (s.txAdvanced taken [] answers).commandSent.complete (.sent (s.txSent + taken.length))

/-- A write fails after the bytes `taken` of a command, which `rest` completes (R126). -/
def State.txFailed (taken rest : List Byte) (answers : List TxAnswer) (s : State) : State :=
  { s.txAdvanced taken rest answers with errIo := true }.complete
    (.err (.ioWrite (s.txSent + taken.length) (s.txSent + (taken ++ rest).length)))

theorem State.txCompleted_txAdvanced (s : State) (xs ys mid : List Byte) (as bs : List TxAnswer) :
    (s.txAdvanced xs mid as).txCompleted ys bs = s.txCompleted (xs ++ ys) bs := by
  rw [State.txCompleted, State.txCompleted, State.txAdvanced_txAdvanced, List.length_append, ← Nat.add_assoc]
  rfl

/-- What R126 writes where the next byte in the queue fails. -/
theorem State.txFailed_nil (s : State) (rest : List Byte) (answers : List TxAnswer) :
    s.txFailed [] rest answers =
      { s with txAnswers := answers, errIo := true }.complete
        (.err (.ioWrite s.txSent (s.txSent + rest.length))) := by
  rw [State.txFailed, State.txAdvanced, List.append_nil]
  rfl

theorem State.txFailed_txAdvanced (s : State) (xs rest mid : List Byte) (as bs : List TxAnswer) :
    (s.txAdvanced xs mid as).txFailed [] rest bs = s.txFailed xs rest bs := by
  rw [State.txFailed, State.txFailed, State.txAdvanced_txAdvanced, List.append_nil, List.nil_append,
    List.length_append, ← Nat.add_assoc]
  rfl

/-- An IO_ERROR sets its own ghost flag alone (R171, R179). -/
theorem State.raise_ioWrite (s : State) (sent total : Nat) :
    s.raise (.ioWrite sent total) = { s with errIo := true }.complete (.err (.ioWrite sent total)) := by
  have hnote : s.noteError (.ioWrite sent total) = { s with errIo := true } := by
    simp [State.noteError, BlockError.kind]
  rw [State.raise, hnote]

section TxStep

variable {s : State} {ans : TxAnswer} {more : List TxAnswer} {b : Byte} {rest : List Byte}

/-- In phase TX a step is the TX step on the channel's next answer. -/
theorem step_eq_txStep (hphase : s.phase = .tx) (hu : Unstopped s) (ha : s.txAnswers = ans :: more) :
    step s = s.txStep ans := by
  rw [step, State.unlessStopped_eq hu.1 hu.2]
  simp only [hphase, ha]

/-- A byte taken, with more of the command left. -/
theorem step_tx_more (hphase : s.phase = .tx) (hu : Unstopped s) (hq : s.txq = b :: rest) (hrest : rest ≠ [])
    (ha : s.txAnswers = .ok :: more) : step s = .next (s.txAdvanced [b] rest more) := by
  rw [step_eq_txStep hphase hu ha, State.txStep]
  simp only [hq, ha, if_neg hrest]
  rfl

/-- The last byte taken. -/
theorem step_tx_last (hphase : s.phase = .tx) (hu : Unstopped s) (hq : s.txq = [b])
    (ha : s.txAnswers = .ok :: more) : step s = .next (s.txCompleted [b] more) := by
  rw [step_eq_txStep hphase hu ha, State.txStep]
  simp only [hq, ha]
  rfl

/-- The write of a byte fails. -/
theorem step_tx_fail (hphase : s.phase = .tx) (hu : Unstopped s) (hq : s.txq ≠ [])
    (ha : s.txAnswers = .fail :: more) : step s = .next (s.txFailed [] s.txq more) := by
  obtain ⟨b, rest, hq⟩ := List.exists_cons_of_ne_nil hq
  rw [step_eq_txStep hphase hu ha, State.txStep, State.txFailed_nil]
  simp only [hq, ha, State.raise_ioWrite]
  rfl

end TxStep

/-- Settles O23: the three branches of the TX step. -/
theorem txStepByAnswer : Obligations.TxStepByAnswer := by
  intro s b rest hphase hu hq
  refine ⟨fun more ha hrest => step_tx_more hphase hu hq hrest ha, fun more ha hrest => ?_, fun more ha => ?_⟩
  · subst hrest
    exact step_tx_last hphase hu hq ha
  · rw [step_tx_fail hphase hu (by simp [hq]) ha, State.txFailed_nil]

/-- Settles O24: the invariant has no acknowledgement outstanding in phase TX, and the failure leaves that. -/
theorem txFailEndsCommand : Obligations.TxFailEndsCommand := by
  intro s more hinv hphase hu ha
  rw [step_tx_fail hphase hu (hinv.txq_nonempty hphase) ha, State.txFailed_nil, ← hinv.tx_ack hphase]
  rfl

/-! ### The run of a command (R127) -/

section TxRun

variable {s : State} {more : List TxAnswer}

theorem runFor_one {s t : State} (h : step s = .next t) : runFor 1 s = .next t := runFor_next h

/-- One `ok` a byte takes the bytes `taken` of a command that has more to send. -/
theorem runFor_tx_ok {taken rest : List Byte} (k : Nat) (hphase : s.phase = .tx) (hu : Unstopped s)
    (hq : s.txq = taken ++ rest) (hrest : rest ≠ [])
    (ha : s.txAnswers = List.replicate taken.length .ok ++ more) :
    runFor (taken.length + k) s = runFor k (s.txAdvanced taken rest more) := by
  induction taken generalizing s with
  | nil =>
    have hadv : s.txAdvanced [] rest more = s := State.txAdvanced_nil hq ha
    rw [hadv, List.length_nil, Nat.zero_add]
  | cons b bs ih =>
    have hstep := step_tx_more hphase hu hq (by simp [hrest]) ha
    have hrun := ih (s := s.txAdvanced [b] (bs ++ rest) (List.replicate bs.length .ok ++ more)) hphase hu rfl rfl
    rw [State.txAdvanced_txAdvanced] at hrun
    rw [List.length_cons, Nat.add_right_comm]
    exact (runFor_next hstep).trans hrun

/-- A command whose every byte is answered `ok` is sent whole. -/
theorem runFor_tx_completed (hphase : s.phase = .tx) (hu : Unstopped s) (hne : s.txq ≠ [])
    (ha : s.txAnswers = List.replicate s.txq.length .ok ++ more) :
    runFor s.txq.length s = .next (s.txCompleted s.txq more) := by
  obtain ⟨taken, b, hq⟩ := (List.eq_nil_or_concat' s.txq).resolve_left hne
  rw [hq, List.length_append, List.length_singleton] at ha ⊢
  rw [List.replicate_succ', List.append_assoc] at ha
  have hrun := runFor_tx_ok 1 hphase hu hq (List.cons_ne_nil b []) ha
  have hlast := step_tx_last (s := s.txAdvanced taken [b] (.ok :: more)) hphase hu rfl rfl
  rw [State.txCompleted_txAdvanced] at hlast
  exact hrun.trans (runFor_one hlast)

/-- A command whose byte `k` is answered `fail` ends there. -/
theorem runFor_tx_failed {k : Nat} (hphase : s.phase = .tx) (hu : Unstopped s) (hk : k < s.txq.length)
    (ha : s.txAnswers = List.replicate k .ok ++ .fail :: more) :
    runFor (k + 1) s = .next (s.txFailed (s.txq.take k) (s.txq.drop k) more) := by
  have hlen : (s.txq.take k).length = k := List.length_take_of_le hk.le
  have hrest : s.txq.drop k ≠ [] := by simpa using hk
  have hrun := runFor_tx_ok 1 hphase hu (List.take_append_drop k s.txq).symm hrest (hlen.symm ▸ ha)
  rw [hlen] at hrun
  have hfail := step_tx_fail (s := s.txAdvanced (s.txq.take k) (s.txq.drop k) (.fail :: more)) hphase hu hrest rfl
  rw [State.txFailed_txAdvanced] at hfail
  exact hrun.trans (runFor_one hfail)

end TxRun

/-- Settles O25: the issue, then the run of its TX steps, whose end writes over what the issue wrote. A failure
leaves `ack_pending` as it was before the issue. -/
theorem commandRunSummary : Obligations.CommandRunSummary := by
  intro s o image more hack hu hlen hbegin
  have hu' : Unstopped (s.beginTx o image) := hu
  refine ⟨fun ha => ?_, fun k hk ha => ?_⟩
  · have hne : image ≠ [] := List.ne_nil_of_length_pos (by omega)
    have hrun : runFor image.length (s.beginTx o image) = .next ((s.beginTx o image).txCompleted image more) :=
      runFor_tx_completed rfl hu' hne ha
    rw [runFor_next hbegin, hrun, State.txCompleted, State.beginTx_txSent, Nat.zero_add]
    rfl
  · have hrun : runFor (k + 1) (s.beginTx o image) =
        .next ((s.beginTx o image).txFailed (image.take k) (image.drop k) more) :=
      runFor_tx_failed rfl hu' hk ha
    rw [runFor_next hbegin, hrun, State.txFailed, State.beginTx_txSent, List.take_append_drop,
      List.length_take_of_le hk.le, Nat.zero_add, Nat.zero_add, ← hack]
    rfl

end Sys2Proof.Machine
end

section
/-! PROOFS. The statements of 42_ack_response.md: the issue of an AWAIT_ACK (R140, R141), the acknowledgement validator
(R142), the two RX steps for every answer of the channel (R143, R144, R146), what holds at the end of an AWAIT_ACK
(R145), and its run to that end (R147). -/

namespace Sys2Proof.Machine

/-! ### The acknowledgement validator (R142) -/

theorem isAck_iff {a : Byte} : isAck a = true ↔ a = 0x06 := by
  rw [isAck, Config.ack, beq_iff_eq]

/-- Settles O5: the validator compares the whole byte with the constant. -/
theorem ackIsExactlySix : Obligations.AckIsExactlySix := fun _ => isAck_iff

/-! ### The issue of an AWAIT_ACK (R140, R141) -/

/-- A count is never negative, so its issue is not refused. -/
theorem exec_awaitAck {s : State} (hready : s.HostReady) (n : Nat) :
    exec (.awaitAck n) s = .next (s.startAck n) := by
  have hrefusal : refusalOfCount s n = none :=
    refusalOf_none.mpr ⟨if_pos (Int.natCast_nonneg n), rfl⟩
  rw [exec, execAwaitAck, hrefusal, Int.toNat_natCast, State.issue_accepted hready]

theorem State.startAck_none {s : State} (ha : s.ackPending = false) (n : Nat) :
    s.startAck n = s.recordFault .seqAwait := by
  rw [State.startAck, if_neg (by simp [ha])]

theorem State.startAck_tooLong {s : State} {n : Nat} (ha : s.ackPending = true) (hn : s.params.maxResp < n) :
    s.startAck n = s.recordFault .responseTooLong := by
  rw [State.startAck, if_pos ha, if_pos hn]

/-- Settles O26: both checks of R140 pass. -/
theorem awaitAckStarts : Obligations.AwaitAckStarts := by
  intro s n hready ha hn
  rw [exec_awaitAck hready, State.startAck_accepted ha hn, State.beginAck]

/-- Settles O27: the acknowledgement is asked for before the length. -/
theorem awaitAckFaultsInOrder : Obligations.AwaitAckFaultsInOrder := by
  intro s n hready
  have hrecord := State.recordFault_of_none hready.unstopped.1
  refine ⟨fun ha => ?_, fun ha hn => ?_⟩
  · rw [exec_awaitAck hready, State.startAck_none ha, hrecord]
  · rw [exec_awaitAck hready, State.startAck_tooLong ha hn, hrecord]

/-! ### What the RX steps leave (R143, R144, R146) -/

/-- An AWAIT_ACK completes with `r` after the bytes `taken`: no acknowledgement is outstanding, and `answers` are left
in the channel (R145). -/
def State.rxCompleted (taken : List Byte) (answers : List RxAnswer) (r : Result) (s : State) : State :=
  { s with rxAnswers := answers, rxLog := s.rxLog ++ taken }.ackRetired.complete r

/-- The byte `0x06` is taken and a payload is wanted (R143). -/
def State.payloadBegun (answers : List RxAnswer) (s : State) : State :=
  { s with rxAnswers := answers, rxLog := s.rxLog ++ [0x06], phase := .payload }

/-- The payload bytes `taken` have been read, and more are wanted (R144). -/
def State.rxAdvanced (taken : List Byte) (answers : List RxAnswer) (s : State) : State :=
  { s with rxAnswers := answers, rxLog := s.rxLog ++ taken, rxBuf := s.rxBuf ++ taken }

theorem State.rxCompleted_payloadBegun (s : State) (xs : List Byte) (as bs : List RxAnswer) (r : Result) :
    (s.payloadBegun as).rxCompleted xs bs r = s.rxCompleted (0x06 :: xs) bs r := by
  rw [State.rxCompleted, State.payloadBegun, List.append_assoc]
  rfl

theorem State.rxCompleted_rxAdvanced (s : State) (xs ys : List Byte) (as bs : List RxAnswer) (r : Result) :
    (s.rxAdvanced xs as).rxCompleted ys bs r = s.rxCompleted (xs ++ ys) bs r := by
  rw [State.rxCompleted, State.rxAdvanced, List.append_assoc]
  rfl

theorem State.rxAdvanced_nil {s : State} {answers : List RxAnswer} (hrx : s.rxAnswers = answers) :
    s.rxAdvanced [] answers = s := by
  rw [State.rxAdvanced, List.append_nil, List.append_nil, ← hrx]

theorem State.rxAdvanced_rxAdvanced (s : State) (xs ys : List Byte) (as bs : List RxAnswer) :
    (s.rxAdvanced xs as).rxAdvanced ys bs = s.rxAdvanced (xs ++ ys) bs := by
  simp [State.rxAdvanced]

/-- An IO_ERROR sets its own ghost flag alone (R171, R179). -/
theorem State.raise_ioRead (s : State) (stage : RxStage) (got want : Nat) :
    s.raise (.ioRead stage got want) = { s with errIo := true }.complete (.err (.ioRead stage got want)) := by
  have hnote : s.noteError (.ioRead stage got want) = { s with errIo := true } := by
    simp [State.noteError, BlockError.kind]
  rw [State.raise, hnote]

/-- A PROTOCOL_ERROR sets its own ghost flag alone (R172, R179). -/
theorem State.raise_protocol (s : State) (a : Byte) :
    s.raise (.protocol a) = { s with errProtocol := true }.complete (.err (.protocol a)) := by
  have hnote : s.noteError (.protocol a) = { s with errProtocol := true } := by
    simp [State.noteError, BlockError.kind]
  rw [State.raise, hnote]

theorem State.rxFail_eq (s : State) (stage : RxStage) :
    s.rxFail stage =
      { s with rxAnswers := s.rxAnswers.tail, errIo := true }.ackRetired.complete
        (.err (.ioRead stage s.rxBuf.length s.rxWant)) := by
  rw [State.rxFail, State.raise_ioRead]
  rfl

theorem State.rxAckByte_rejected {s : State} {a : Byte} (ha : a ≠ 0x06) :
    s.rxAckByte a = { s with errProtocol := true }.rxCompleted [a] s.rxAnswers.tail (.err (.protocol a)) := by
  rw [State.rxAckByte, if_neg (mt isAck_iff.mp ha), State.raise_protocol]
  rfl

theorem State.rxAckByte_only {s : State} (hw : s.rxWant = 0) :
    s.rxAckByte 0x06 = s.rxCompleted [0x06] s.rxAnswers.tail .noData := by
  rw [State.rxAckByte, if_pos (isAck_iff.mpr rfl), if_pos hw]
  rfl

theorem State.rxAckByte_more {s : State} (hw : s.rxWant ≠ 0) :
    s.rxAckByte 0x06 = s.payloadBegun s.rxAnswers.tail := by
  rw [State.rxAckByte, if_pos (isAck_iff.mpr rfl), if_neg hw]
  rfl

theorem State.rxPayloadByte_last {s : State} (b : Byte) (hw : s.rxBuf.length + 1 = s.rxWant) :
    s.rxPayloadByte b = s.rxCompleted [b] s.rxAnswers.tail (.data (s.rxBuf ++ [b])) :=
  if_pos hw

theorem State.rxPayloadByte_more {s : State} (b : Byte) (hw : s.rxBuf.length + 1 ≠ s.rxWant) :
    s.rxPayloadByte b = s.rxAdvanced [b] s.rxAnswers.tail :=
  if_neg hw

/-! ### The two rows of the acknowledgement byte (R74, R143) -/

theorem State.ackByte_eq {s : State} (hphase : s.phase = .ackWait) (hu : Unstopped s) (a : Byte) :
    s.ackByte a = .next (s.rxAckByte a) := by
  rw [State.ackByte, State.unlessStopped_eq hu.1 hu.2, if_pos hphase]

/-- Whichever of the two rows a byte is, it acts as the RX acknowledgement step on that byte. -/
theorem exec_decodeAck (s : State) (a : Byte) : exec (decodeAck a) s = s.ackByte a := by
  by_cases ha : a = 0x06
  · subst ha
    rfl
  · rw [decodeAck_of_ne ha]
    rfl

/-- Settles O28: the RX acknowledgement step on the constant. -/
theorem ackAcceptedCompletes : Obligations.AckAcceptedCompletes := by
  intro s hphase hu
  have hexec : exec .ackAccepted s = .next (s.rxAckByte 0x06) := State.ackByte_eq hphase hu 0x06
  refine ⟨fun hw => ?_, fun hw => ?_⟩
  · rw [hexec, State.rxAckByte_only hw]
    rfl
  · rw [hexec, State.rxAckByte_more hw]
    rfl

/-- Settles O29: the RX acknowledgement step on a byte that the validator turns down. -/
theorem notAckCompletes : Obligations.NotAckCompletes := by
  intro s a hphase hu ha
  have hexec : exec (.notAck a) s = .next (s.rxAckByte a) := State.ackByte_eq hphase hu a
  rw [hexec, State.rxAckByte_rejected ha]
  rfl

/-! ### The RX steps by the channel's answer (R143, R144, R146) -/

section RxStep

variable {s : State} {more : List RxAnswer} {a b : Byte}

/-- In phase ACK_WAIT a step is the RX acknowledgement step on the byte answered. -/
theorem step_ack_byte (hphase : s.phase = .ackWait) (hu : Unstopped s) (hrx : s.rxAnswers = .byte a :: more) :
    step s = .next (s.rxAckByte a) := by
  rw [stepRunsDecodedInstruction.2 s a more hphase hu hrx, exec_decodeAck, State.ackByte_eq hphase hu]

theorem step_ack_fail (hphase : s.phase = .ackWait) (hu : Unstopped s) (hrx : s.rxAnswers = .fail :: more) :
    step s = .next
      ({ s with rxAnswers := more, errIo := true }.ackRetired.complete
        (.err (.ioRead .ack s.rxBuf.length s.rxWant))) := by
  rw [step, State.unlessStopped_eq hu.1 hu.2]
  simp only [hphase, hrx, State.rxFail_eq, List.tail_cons]

theorem step_ack_rejected (hphase : s.phase = .ackWait) (hu : Unstopped s) (hrx : s.rxAnswers = .byte a :: more)
    (ha : a ≠ 0x06) :
    step s = .next ({ s with errProtocol := true }.rxCompleted [a] more (.err (.protocol a))) := by
  rw [step_ack_byte hphase hu hrx, State.rxAckByte_rejected ha, hrx, List.tail_cons]

theorem step_ack_only (hphase : s.phase = .ackWait) (hu : Unstopped s) (hrx : s.rxAnswers = .byte 0x06 :: more)
    (hw : s.rxWant = 0) : step s = .next (s.rxCompleted [0x06] more .noData) := by
  rw [step_ack_byte hphase hu hrx, State.rxAckByte_only hw, hrx, List.tail_cons]

theorem step_ack_more (hphase : s.phase = .ackWait) (hu : Unstopped s) (hrx : s.rxAnswers = .byte 0x06 :: more)
    (hw : s.rxWant ≠ 0) : step s = .next (s.payloadBegun more) := by
  rw [step_ack_byte hphase hu hrx, State.rxAckByte_more hw, hrx, List.tail_cons]

/-- In phase PAYLOAD a step is the RX payload step on the byte answered. -/
theorem step_payload_byte (hphase : s.phase = .payload) (hu : Unstopped s) (hrx : s.rxAnswers = .byte b :: more) :
    step s = .next (s.rxPayloadByte b) := by
  rw [step, State.unlessStopped_eq hu.1 hu.2]
  simp only [hphase, hrx]

theorem step_payload_fail (hphase : s.phase = .payload) (hu : Unstopped s) (hrx : s.rxAnswers = .fail :: more) :
    step s = .next
      ({ s with rxAnswers := more, errIo := true }.ackRetired.complete
        (.err (.ioRead .payload s.rxBuf.length s.rxWant))) := by
  rw [step, State.unlessStopped_eq hu.1 hu.2]
  simp only [hphase, hrx, State.rxFail_eq, List.tail_cons]

theorem step_payload_last (hphase : s.phase = .payload) (hu : Unstopped s) (hrx : s.rxAnswers = .byte b :: more)
    (hw : s.rxBuf.length + 1 = s.rxWant) : step s = .next (s.rxCompleted [b] more (.data (s.rxBuf ++ [b]))) := by
  rw [step_payload_byte hphase hu hrx, State.rxPayloadByte_last b hw, hrx, List.tail_cons]

theorem step_payload_more (hphase : s.phase = .payload) (hu : Unstopped s) (hrx : s.rxAnswers = .byte b :: more)
    (hw : s.rxBuf.length + 1 ≠ s.rxWant) : step s = .next (s.rxAdvanced [b] more) := by
  rw [step_payload_byte hphase hu hrx, State.rxPayloadByte_more b hw, hrx, List.tail_cons]

end RxStep

/-- Settles O30: the four branches of the RX acknowledgement step. -/
theorem rxAckStepByAnswer : Obligations.RxAckStepByAnswer := by
  intro s hphase hu
  exact ⟨fun more hrx => step_ack_fail hphase hu hrx, fun a more hrx ha => step_ack_rejected hphase hu hrx ha,
    fun more hrx hw => step_ack_only hphase hu hrx hw, fun more hrx hw => step_ack_more hphase hu hrx hw⟩

/-- Settles O31: the three branches of the RX payload step. -/
theorem rxPayloadStepByAnswer : Obligations.RxPayloadStepByAnswer := by
  intro s hphase hu
  exact ⟨fun more hrx => step_payload_fail hphase hu hrx, fun b more hrx hw => step_payload_last hphase hu hrx hw,
    fun b more hrx hw => step_payload_more hphase hu hrx hw⟩

/-! ### The end of an AWAIT_ACK (R145, R204) -/

/-- The RX steps that lead to IDLE complete with the acknowledgement retired; the others stay in an RX phase. -/
theorem StepEffect.awaitEnded {s t : State} (h : StepEffect s t) (hu : Unstopped s)
    (hphase : s.phase = .ackWait ∨ s.phase = .payload) (hidle : t.phase = .idle) :
    CleanEntry t ∧ t.awaitsDone = s.awaitsDone + 1 := by
  have hbusy : s.phase ≠ .idle := by intro h; simp [h] at hphase
  have hnotReady : ¬ s.HostReady := fun ⟨_, hphase, _⟩ => hbusy hphase
  have htx : s.phase ≠ .tx := by intro h; simp [h] at hphase
  cases h with
  | same => exact absurd hidle hbusy
  | refused r hready => exact absurd hready hnotReady
  | faulted f hready => exact absurd hready hnotReady
  | validation hready => exact absurd hready hnotReady
  | codec i r hready hi hfit hok => exact absurd hready hnotReady
  | beginTx i o image hready hi hsend ho hl hm ha => exact absurd hready hnotReady
  | beginAck n hready hi ha hn => exact absurd hready hnotReady
  | txMore b rest hp hq hrest => exact absurd hp htx
  | txLast b hp hq => exact absurd hp htx
  | txFail hp hq => exact absurd hp htx
  | ackFail hp => exact ⟨⟨rfl, rfl, rfl, hu⟩, rfl⟩
  | ackRejected a hp ha => exact ⟨⟨rfl, rfl, rfl, hu⟩, rfl⟩
  | ackOnly hp hw => exact ⟨⟨rfl, rfl, rfl, hu⟩, rfl⟩
  | ackMore hp hw => exact nomatch hidle
  | payloadFail hp => exact ⟨⟨rfl, rfl, rfl, hu⟩, rfl⟩
  | payloadMore b hp hw => exact absurd hidle hbusy
  | payloadLast b hp hw => exact ⟨⟨rfl, rfl, rfl, hu⟩, rfl⟩

/-- Settles O33, from the one list of what a step can do. -/
theorem awaitAckEndsClean : Obligations.AwaitAckEndsClean := by
  intro s t hphase h hidle
  obtain ⟨hu, heffect⟩ := step_effect h
  exact heffect.awaitEnded hu hphase hidle

/-! ### The run of an AWAIT_ACK (R147) -/

section RxRun

variable {s : State} {more : List RxAnswer} {p : List Byte}

/-- The bytes `p` of a payload that is longer. -/
theorem runFor_payload_bytes (k : Nat) (hphase : s.phase = .payload) (hu : Unstopped s)
    (hshort : s.rxBuf.length + p.length < s.rxWant) (hrx : s.rxAnswers = p.map .byte ++ more) :
    runFor (p.length + k) s = runFor k (s.rxAdvanced p more) := by
  induction p generalizing s with
  | nil =>
    have hadv : s.rxAdvanced [] more = s := State.rxAdvanced_nil hrx
    rw [hadv, List.length_nil, Nat.zero_add]
  | cons b bs ih =>
    rw [List.length_cons] at hshort ⊢
    have hstep := step_payload_more hphase hu hrx (by omega)
    have hrun := ih (s := s.rxAdvanced [b] (bs.map .byte ++ more)) hphase hu
      (by simp only [State.rxAdvanced, List.length_append, List.length_singleton]; omega) rfl
    rw [State.rxAdvanced_rxAdvanced] at hrun
    rw [Nat.add_right_comm]
    exact (runFor_next hstep).trans hrun

/-- The bytes `p` that a payload still wants. -/
theorem runFor_payload_completed (hphase : s.phase = .payload) (hu : Unstopped s) (hne : p ≠ [])
    (hlen : s.rxBuf.length + p.length = s.rxWant) (hrx : s.rxAnswers = p.map .byte ++ more) :
    runFor p.length s = .next (s.rxCompleted p more (.data (s.rxBuf ++ p))) := by
  obtain ⟨taken, b, rfl⟩ := (List.eq_nil_or_concat' p).resolve_left hne
  rw [List.length_append, List.length_singleton] at hlen ⊢
  rw [List.map_append, List.append_assoc] at hrx
  have hrun := runFor_payload_bytes 1 hphase hu (by omega) hrx
  have hlast := step_payload_last (s := s.rxAdvanced taken (.byte b :: more)) hphase hu rfl
    (by simp only [State.rxAdvanced, List.length_append]; omega)
  rw [State.rxCompleted_rxAdvanced, State.rxAdvanced, List.append_assoc] at hlast
  exact hrun.trans (runFor_one hlast)

/-- A payload whose read fails after the bytes `p` of it. -/
theorem runFor_payload_failed {got : Nat} (hphase : s.phase = .payload) (hu : Unstopped s)
    (hgot : s.rxBuf.length + p.length = got) (hshort : got < s.rxWant)
    (hrx : s.rxAnswers = p.map .byte ++ .fail :: more) :
    runFor (p.length + 1) s = .next
      ({ s with errIo := true }.rxCompleted p more (.err (.ioRead .payload got s.rxWant))) := by
  subst hgot
  have hrun := runFor_payload_bytes 1 hphase hu hshort hrx
  have hfail := step_payload_fail (s := s.rxAdvanced p (.fail :: more)) hphase hu rfl
  rw [hrun, runFor_one hfail, State.rxCompleted, ← List.length_append]
  rfl

end RxRun

/-- Settles O32: the issue, then the RX steps, whose end writes over what the issue wrote. -/
theorem awaitAckRunSummary : Obligations.AwaitAckRunSummary := by
  intro s n more hu hbegin
  have hu' : Unstopped (s.beginAck n) := hu
  have hissue : ∀ {k t}, runFor k (s.beginAck n) = .next t → runFor (k + 1) s = .next t :=
    (runFor_next hbegin).trans
  refine ⟨fun hrx => ?_, fun a hrx ha => ?_, fun hrx hn => ?_, fun p hlen hn hrx => ?_, fun q hlen hrx => ?_⟩
  · exact hissue (runFor_one (step_ack_fail rfl hu' hrx))
  · exact hissue (runFor_one (step_ack_rejected rfl hu' hrx ha))
  · exact hissue (runFor_one (step_ack_only rfl hu' hrx hn))
  · subst hlen
    have hbegun := step_ack_more rfl hu' hrx (Nat.ne_of_gt hn)
    have hrun := runFor_payload_completed (s := (s.beginAck p.length).payloadBegun (p.map .byte ++ more)) rfl hu'
      (List.ne_nil_of_length_pos hn) (Nat.zero_add _) rfl
    rw [State.rxCompleted_payloadBegun] at hrun
    exact hissue ((runFor_next hbegun).trans hrun)
  · have hbegun := step_ack_more rfl hu' hrx (Nat.ne_zero_of_lt hlen)
    have hrun := runFor_payload_failed (s := (s.beginAck n).payloadBegun (q.map .byte ++ .fail :: more)) rfl hu'
      (Nat.zero_add _) hlen rfl
    refine hissue ((runFor_next hbegun).trans (hrun.trans ?_))
    exact congrArg Host.Outcome.next
      (State.rxCompleted_payloadBegun { s.beginAck n with errIo := true } q _ more _)

end Sys2Proof.Machine
end

section
/-! PROOFS. The statements of 70_reset_and_hazards.md: reset (R200), the mode hazard (R205), waiting and the end of an
access that the channel answers (R209), and the end of a run (R212). -/

namespace Sys2Proof.Machine

/-! ### Reset (R200) -/

/-- Settles O45: the fields as the reset state gives them. -/
theorem resetLeaves : Obligations.ResetLeaves :=
  ⟨rfl, rfl, rfl, rfl, rfl, rfl, rfl, rfl, rfl, rfl, rfl, rfl, rfl, rfl, rfl, rfl, rfl⟩

/-! ### The mode hazard (R205, R56) -/

/-- A byte as its own Word is the Word with high byte zero. -/
theorem zeroExtend_eq_joinBytes (b : Byte) : BitVec.zeroExtend 16 b = joinBytes 0#8 b := by
  have := b.isLt
  exact BitVec.eq_of_toNat_eq (by rw [joinBytes_toNat, BitVec.toNat_setWidth, BitVec.toNat_zero]; omega)

/-- Each byte, as its own Word, brings a zero byte before it. -/
theorem wordImage_map_zeroExtend (bs : List Byte) :
    wordImage (bs.map fun b => BitVec.zeroExtend 16 b) = bs.flatMap fun b => [0x00, b] := by
  induction bs with
  | nil => rfl
  | cons b bs ih =>
    rw [List.map_cons, wordImage, ih, zeroExtend_eq_joinBytes, hiByte_joinBytes, loByte_joinBytes, List.flatMap_cons]
    rfl

/-- Settles O56: the word-mode image is twice as long as the bytes. -/
theorem wrongModeChangesTheBytes : Obligations.WrongModeChangesTheBytes := by
  refine fun bs => ⟨wordImage_map_zeroExtend bs, fun hne heq => ?_⟩
  have hlen := congrArg List.length heq
  rw [wordImage_length, List.length_map] at hlen
  have hpos := List.length_pos_iff.mpr hne
  omega

/-! ### Waiting (R209) and ended runs (R212) -/

theorem State.fetch?_of_not_running {s : State} (h : s.status ≠ .running) : s.fetch? = none :=
  if_neg fun hready => h hready.1

/-- Settles O38: in each phase, the branch of `step` in which no step is enabled. -/
theorem waitingAndFinalStatesStay : Obligations.WaitingAndFinalStatesStay := by
  rintro s ⟨hf, hr⟩ ((⟨hphase, hans⟩ | ⟨hphase | hphase, hans⟩) | ⟨hphase, hover⟩) <;>
    rw [step, State.unlessStopped_eq hf hr]
  · simp only [hphase, hans]
  · simp only [hphase, hans]
  · simp only [hphase, hans]
  · simp only [hphase, State.fetch?_of_not_running hover]

/-! ### An access that the channel answers comes to an end (R209) -/

/-- Some number of steps, at most `n`, leads to phase IDLE. -/
def IdleWithin (n : Nat) (s : State) : Prop :=
  ∃ (k : Nat) (t : State), k ≤ n ∧ runFor k s = .next t ∧ t.phase = .idle

/-- One step, and the steps after it. -/
theorem IdleWithin.of_step {n : Nat} {s t : State} (hstep : step s = .next t) (h : IdleWithin n t) :
    IdleWithin (n + 1) s := by
  obtain ⟨k, u, hk, hrun, hidle⟩ := h
  exact ⟨k + 1, u, Nat.succ_le_succ hk, (runFor_next hstep).trans hrun, hidle⟩

/-- One step that ends the operation. -/
theorem IdleWithin.of_last_step {n : Nat} {s t : State} (hstep : step s = .next t) (hidle : t.phase = .idle) :
    IdleWithin (n + 1) s :=
  .of_step hstep ⟨0, t, Nat.zero_le n, runFor_zero t, hidle⟩

/-- Each answer takes a byte of the command or ends it (R125, R126). -/
theorem idleWithin_tx {s : State} {queue : List Byte} (hphase : s.phase = .tx) (hu : Unstopped s)
    (hq : s.txq = queue) (hne : queue ≠ []) (hlen : queue.length ≤ s.txAnswers.length) :
    IdleWithin queue.length s := by
  induction queue generalizing s with
  | nil => exact absurd rfl hne
  | cons b rest ih =>
    obtain ⟨ans, more, ha⟩ := List.exists_cons_of_length_pos (Nat.lt_of_lt_of_le (Nat.succ_pos _) hlen)
    rw [ha] at hlen
    cases ans with
    | fail => exact .of_last_step (step_tx_fail hphase hu (hq ▸ hne) ha) rfl
    | ok =>
      by_cases hrest : rest = []
      · subst hrest
        exact .of_last_step (step_tx_last hphase hu hq ha) rfl
      · exact .of_step (step_tx_more hphase hu hq hrest ha)
          (ih (s := s.txAdvanced [b] rest more) hphase hu rfl hrest (Nat.le_of_succ_le_succ hlen))

/-- Settles O51, by induction on the bytes left, of which a transmission always has one. -/
theorem answeredTransmissionEnds : Obligations.AnsweredTransmissionEnds :=
  fun _ hinv hu hphase hlen => idleWithin_tx hphase hu rfl (hinv.txq_nonempty hphase) hlen

/-- Each answer takes a byte of the payload or ends the AWAIT_ACK (R144, R146). -/
theorem idleWithin_payload {s : State} {n : Nat} (hphase : s.phase = .payload) (hu : Unstopped s)
    (hwant : s.rxBuf.length + (n + 1) = s.rxWant) (hlen : n + 1 ≤ s.rxAnswers.length) :
    IdleWithin (n + 1) s := by
  induction n generalizing s with
  | zero =>
    obtain ⟨ans, more, hrx⟩ := List.exists_cons_of_length_pos hlen
    cases ans with
    | fail => exact .of_last_step (step_payload_fail hphase hu hrx) rfl
    | byte b => exact .of_last_step (step_payload_last hphase hu hrx hwant) rfl
  | succ n ih =>
    obtain ⟨ans, more, hrx⟩ := List.exists_cons_of_length_pos (Nat.lt_of_lt_of_le (Nat.succ_pos _) hlen)
    rw [hrx] at hlen
    cases ans with
    | fail => exact .of_last_step (step_payload_fail hphase hu hrx) rfl
    | byte b =>
      have hwant' : (s.rxBuf ++ [b]).length + (n + 1) = s.rxWant := by
        rw [List.length_append, List.length_singleton]
        omega
      exact .of_step (step_payload_more hphase hu hrx (by omega))
        (ih (s := s.rxAdvanced [b] more) hphase hu hwant' (Nat.le_of_succ_le_succ hlen))

/-- Settles O52: the acknowledgement ends the operation, or the payload follows, whose buffer is empty. -/
theorem answeredAwaitEnds : Obligations.AnsweredAwaitEnds := by
  intro s hinv hu hphase hlen
  change IdleWithin (s.rxWant + 1) s
  obtain ⟨ans, more, hrx⟩ := List.exists_cons_of_length_pos (Nat.lt_of_lt_of_le (Nat.succ_pos _) hlen)
  rw [hrx] at hlen
  cases ans with
  | fail => exact .of_last_step (step_ack_fail hphase hu hrx) rfl
  | byte a =>
    by_cases ha : a = 0x06
    · subst ha
      by_cases hw : s.rxWant = 0
      · exact .of_last_step (step_ack_only hphase hu hrx hw) rfl
      · obtain ⟨n, hn⟩ := Nat.exists_eq_succ_of_ne_zero hw
        have hwant : s.rxBuf.length + (n + 1) = s.rxWant := by
          rw [hinv.ackWait_buf hphase, hn, List.length_nil, Nat.zero_add]
        rw [hn] at hlen ⊢
        exact .of_step (step_ack_more hphase hu hrx hw)
          (idleWithin_payload (s := s.payloadBegun more) rfl hu hwant (Nat.le_of_succ_le_succ hlen))
    · exact .of_last_step (step_ack_rejected hphase hu hrx ha) rfl

/-! ### The end of a run (R212) -/

/-- A run that is not RUNNING has recorded no fault and no refusal: either would have left it RUNNING. -/
theorem HostInv.unstopped {s : State} (h : HostInv s) (hover : s.status ≠ .running) : Unstopped s :=
  Classical.byContradiction fun hstop => hover (h.stopped hstop)

/-- A run that is not RUNNING has no operation in progress. -/
theorem HostInv.idle {s : State} (h : HostInv s) (hover : s.status ≠ .running) : s.phase = .idle :=
  Classical.byContradiction fun hbusy => hover (h.busy hbusy).1

/-- A loaded program starts the bookkeeping anew; it is loaded only where the block is idle and the run over. -/
theorem HostInv.loadProgram {s t : State} {P : List ProgCell} (h : HostInv s) (hl : s.loadProgram P = some t) :
    HostInv t := by
  obtain ⟨⟨hidle, hover⟩, rfl⟩ := State.loadProgram_some hl
  exact
    { results_fit := fun k hk => absurd hk (Nat.not_lt_zero k)
      results_length := .inl rfl
      hpc_le := Nat.zero_le _
      busy := fun hbusy => absurd hidle hbusy
      tx_op := by simp [hidle]
      rx_op := by simp [hidle]
      done_end := by cases P <;> simp
      report_done := by simp
      halt_holds := by cases P <;> simp
      running_before := by cases P <;> simp
      stopped := fun hstop => absurd (h.unstopped hover) hstop }

/-- The bookkeeping holds from reset on: the channel's answers write none of its fields. -/
theorem Reachable.hostInv {s : State} (h : Reachable s) : HostInv s := by
  induction h with
  | reset p _ => exact reset_hostInv p
  | step _ hs ih => exact stepKeepsHostInv _ _ ih hs
  | load P _ hl ih => exact ih.loadProgram hl
  | offerTx a _ ih => exact { ih with }
  | offerRx a _ ih => exact { ih with }

/-- With the bookkeeping kept, a run that is not RUNNING is over. -/
theorem HostInv.final {s : State} (h : HostInv s) (hover : s.status ≠ .running) : Final s := by
  refine ⟨?_, h.idle hover, h.unstopped hover⟩
  cases hstatus : s.status with
  | running => exact absurd hstatus hover
  | done => exact .inl rfl
  | halted i e =>
    obtain ⟨-, hholds⟩ := h.halt_holds i e hstatus
    exact .inr ⟨i, e, rfl, hholds⟩

/-- Settles O57: the host's bookkeeping holds in every reachable state. -/
theorem endedRunsAreFinal : Obligations.EndedRunsAreFinal :=
  fun _ hs hover => hs.hostInv.final hover

end Sys2Proof.Machine
end
